-- ==== Sys2Proof/Word.lean ====
section
/-! DEFINITION. The word types of the block and their plainest operations (00_scope R8, R10). -/

namespace Sys2Proof

/-- One chip register, one bus byte (R8 `REG_WIDTH` = 8). -/
abbrev Byte := BitVec 8

/-- One command word (R301: "Every command is one 64-bit word"). -/
abbrev CmdWord := BitVec 64

/-- An opaque bus-path or bus-channel token, or a close status (R8 `CHAN_WIDTH` = 32, R205). -/
abbrev Token := BitVec 32

/-- R10: `bit(k) = 1 << k`, on the 8 bits of a chip register. -/
def bit (k : Nat) : Byte := 1#8 <<< k

/-- R10: `trunc8(v) = v mod 256`, of an exact integer. -/
def trunc8 (v : Int) : Byte := BitVec.ofInt 8 v

end Sys2Proof
end

