-- ==== Sys2Proof/Syntax.lean ====
section
/-! DEFINITION. The six commands of PSEQ-1 (30_encoding R302, spec/opcode_table.json). -/

namespace Sys2Proof

/-- One constructor per row of the opcode table, operands as R311 gives them. -/
inductive Instr where
  /-- OPEN (R490): the bus path token and the 7-bit chip address. -/
  | openDevice (path : Token) (addr7 : BitVec 7)
  /-- CLOSE (R494). -/
  | closeDevice
  /-- APPLY_MODE1 (R420): the MODE1 change request. -/
  | applyMode1 (req16 : BitVec 16)
  /-- APPLY_MODE2 (R430): the MODE2 change request; bits [7:6] are reserved (R309). -/
  | applyMode2 (req8 : BitVec 8)
  /-- SET_FREQUENCY (R450): the frequency in Hz. -/
  | setFrequency (freq : BitVec 32)
  /-- SET_CHANNEL (R470): the channel id and the on and off ticks. -/
  | setChannel (id : BitVec 8) (on off : BitVec 16)
  deriving DecidableEq, Repr

end Sys2Proof
end

