-- ==== Sys2Proof/WellFormed.lean ====
section
/-! DEFINITION. Which instruction terms have a command word (30_encoding R302, R309). -/

namespace Sys2Proof

/-- The operand types carry every width of R302; the one reserved operand field is req8[7:6] (R309: "must be 0
(command-word bits [23:22], rule R304)"). Operands that the block rejects by a response (R307, R451) are well
formed. -/
def Instr.wellFormed : Instr → Bool
  | .openDevice _ _ => true
  | .closeDevice => true
  | .applyMode1 _ => true
  | .applyMode2 req8 => req8.extractLsb' 6 2 == 0
  | .setFrequency _ => true
  | .setChannel _ _ _ => true

/-- `Instr.wellFormed` as a proposition. -/
abbrev Instr.WellFormed (i : Instr) : Prop := i.wellFormed = true

end Sys2Proof
end

