-- ==== Sys2Proof/Decode.lean ====
section
/-! DEFINITION. Decoding of command words by the opcode map, and the encoder (30_encoding R301 to R304, R311). -/

namespace Sys2Proof

/-- One row of R303's opcode map. -/
structure OpcodeRow where
  mnemonic : String
  matchBits : CmdWord
  mask : CmdWord
  deriving DecidableEq, Repr

def rowOpen : OpcodeRow := ⟨"OPEN", 0x0000000000000000, 0x00000000FFFF80FF⟩
def rowClose : OpcodeRow := ⟨"CLOSE", 0x0000000000000001, 0xFFFFFFFFFFFFFFFF⟩
def rowApplyMode1 : OpcodeRow := ⟨"APPLY_MODE1", 0x0000000000000002, 0xFFFFFFFF0000FFFF⟩
def rowApplyMode2 : OpcodeRow := ⟨"APPLY_MODE2", 0x0000000000000003, 0xFFFFFFFFFFC0FFFF⟩
def rowSetFrequency : OpcodeRow := ⟨"SET_FREQUENCY", 0x0000000000000004, 0x00000000FFFFFFFF⟩
def rowSetChannel : OpcodeRow := ⟨"SET_CHANNEL", 0x0000000000000005, 0xFFFF0000000000FF⟩

/-- R303's opcode map. -/
def opcodeTable : List OpcodeRow :=
  [rowOpen, rowClose, rowApplyMode1, rowApplyMode2, rowSetFrequency, rowSetChannel]

/-- R303: "A word selects a mnemonic if and only if `(word & mask) = match`." -/
def OpcodeRow.selects (r : OpcodeRow) (w : CmdWord) : Bool := w &&& r.mask == r.matchBits

/-- The row an instruction stands for. -/
def Instr.row : Instr → OpcodeRow
  | .openDevice _ _ => rowOpen
  | .closeDevice => rowClose
  | .applyMode1 _ => rowApplyMode1
  | .applyMode2 _ => rowApplyMode2
  | .setFrequency _ => rowSetFrequency
  | .setChannel _ _ _ => rowSetChannel

/-- Why a word is illegal (R304). Both reasons give the cause ILLEGAL_COMMAND. -/
inductive DecodeError where
  /-- `op` is 0b110 or 0b111. -/
  | reservedOpcode
  /-- A reserved bit of the opcode's row is set. -/
  | reservedBit
  deriving DecidableEq, Repr

/-- Decoding of a command word, total: the row that the word selects (R303) with the operand fields of R311, or
the reason of R304. -/
def decode (w : CmdWord) : Except DecodeError Instr :=
  if rowOpen.selects w then .ok (.openDevice (w.extractLsb' 32 32) (w.extractLsb' 8 7))
  else if rowClose.selects w then .ok .closeDevice
  else if rowApplyMode1.selects w then .ok (.applyMode1 (w.extractLsb' 16 16))
  else if rowApplyMode2.selects w then .ok (.applyMode2 (w.extractLsb' 16 8))
  else if rowSetFrequency.selects w then .ok (.setFrequency (w.extractLsb' 32 32))
  else if rowSetChannel.selects w then
    .ok (.setChannel (w.extractLsb' 8 8) (w.extractLsb' 16 16) (w.extractLsb' 32 16))
  else if 6 ≤ (w.extractLsb' 0 3).toNat then .error .reservedOpcode
  else .error .reservedBit

/-- The word of an instruction (R302): the operand fields at their places, every reserved bit 0. -/
def encode : Instr → CmdWord
  | .openDevice path addr7 => path ++ 0#17 ++ addr7 ++ 0#5 ++ 0b000#3
  | .closeDevice => 0#61 ++ 0b001#3
  | .applyMode1 req16 => 0#32 ++ req16 ++ 0#13 ++ 0b010#3
  | .applyMode2 req8 => 0#40 ++ req8 ++ 0#13 ++ 0b011#3
  | .setFrequency freq => freq ++ 0#29 ++ 0b100#3
  | .setChannel id on off => 0#16 ++ off ++ on ++ id ++ 0#5 ++ 0b101#3

/-- The instruction the decoder reads from the word whose low `nbits` bits are `w` and whose other bits are 0. A
command word is one 64-bit value to which no byte order applies (91 N15), so the table's numbering is the word's. -/
def decodeTableWord (nbits w : Nat) : Option Instr :=
  (decode (BitVec.ofNat 64 (w % 2 ^ nbits))).toOption

end Sys2Proof
end

