-- ==== Sys2Proof/Config.lean ====
section
/-! DEFINITION. The implementation parameters (00_scope R8, R9) and the free values (93 U5, U12). -/

namespace Sys2Proof

/-- R8 `M1_BIT(f)`: the bit position of each MODE1 flag. -/
structure M1Bits where
  allcall : Fin 8
  sub3 : Fin 8
  sub2 : Fin 8
  sub1 : Fin 8
  sleep : Fin 8
  ai : Fin 8
  extclk : Fin 8
  restart : Fin 8
  deriving DecidableEq, Repr

/-- The eight positions as a list, in the order of R8's table. -/
def M1Bits.positions (b : M1Bits) : List (Fin 8) :=
  [b.allcall, b.sub3, b.sub2, b.sub1, b.sleep, b.ai, b.extclk, b.restart]

/-- R433 `MODE2_OE_POLARITY`. -/
inductive OePolarity where
  | source
  | corrected
  deriving DecidableEq, Repr

/-- R421 `EMPTY_REQUEST_FORM`. -/
inductive EmptyForm where
  | pointerOnly
  | writeZero
  deriving DecidableEq, Repr

/-- R8 `CHANNELS`: a named constant, not a field of `Params`. R8 lets a model take any parameter as an argument; fixing
this one at the source's value is the model's choice (log 27). -/
def Config.channels : Nat := 16

/-- The parameters of R8 ("A model may take any parameter as an argument"), but for the widths, which are fixed in the
types (log 2), and `Config.channels` (log 27). -/
structure Params where
  oscHz : Nat
  periodTicks : Nat
  defaultFreq : Nat
  regMode1 : Byte
  regMode2 : Byte
  regLed0OnL : Byte
  regPreScale : Byte
  m1 : M1Bits
  m2DrvField : Byte
  m2DrvOd : Byte
  m2DrvHz : Byte
  m2OeBit : Byte
  m2Och : Byte
  m2Invrt : Byte
  oePolarity : OePolarity
  emptyForm : EmptyForm
  deriving DecidableEq, Repr

/-- R8's default of every parameter. -/
def Params.default : Params where
  oscHz := 25000000
  periodTicks := 4096
  defaultFreq := 50
  regMode1 := 0x00
  regMode2 := 0x01
  regLed0OnL := 0x06
  regPreScale := 0xFE
  m1 := { allcall := 0, sub3 := 1, sub2 := 2, sub1 := 3, sleep := 4, ai := 5, extclk := 6, restart := 7 }
  m2DrvField := 0x03
  m2DrvOd := 0x01
  m2DrvHz := 0x02
  m2OeBit := 0x04
  m2Och := 0x08
  m2Invrt := 0x10
  oePolarity := .source
  emptyForm := .pointerOnly

/-- What R8, R110, R112, R113 and R202 take for granted of the parameters: the formula's divisors are not 0,
the eight MODE1 positions are distinct, the MODE2 masks do not overlap and the two driver sub-bits lie in the
driver field, PRE_SCALE lies in {250,...,255}, and the three fixed registers are three. The machine runs with
any parameters; claims that need this say so. -/
abbrev Params.wf (p : Params) : Prop :=
  p.periodTicks ≠ 0 ∧ p.defaultFreq ≠ 0 ∧ p.m1.positions.Nodup ∧
  p.m2DrvOd &&& ~~~p.m2DrvField = 0 ∧ p.m2DrvHz &&& ~~~p.m2DrvField = 0 ∧
  p.m2DrvField &&& p.m2OeBit = 0 ∧ p.m2DrvField &&& p.m2Och = 0 ∧ p.m2DrvField &&& p.m2Invrt = 0 ∧
  p.m2OeBit &&& p.m2Och = 0 ∧ p.m2OeBit &&& p.m2Invrt = 0 ∧ p.m2Och &&& p.m2Invrt = 0 ∧
  250 ≤ p.regPreScale.toNat ∧ p.regMode1 ≠ p.regMode2 ∧ p.regMode1 ≠ p.regPreScale ∧
  p.regMode2 ≠ p.regPreScale

/-! ### Free values: constants with no body, so that nothing can be proved of what they are. -/

/-- R412, 93 U12: `S.rsp_close` after any command other than CLOSE, one value for each response (log 8). -/
opaque Config.freeRspClose : Nat → Token

/-- R492, 93 U12: `S.chan` after a failed BusOpen (log 9). -/
opaque Config.freeChan : Nat → Token

/-- 93 U5: the double's register pointer after a BusWrite or BusRead that was made to fail (log 15). -/
opaque Config.freePointer : Nat → Byte

end Sys2Proof
end

