-- ==== Sys2Proof/Machine/State.lean ====
section
/-! DEFINITION. The state of the block, of its ports and of the environment behind them, as plain data
(10_state R100, 20_memory R205, R230; INVENTORY.md, State). -/

namespace Sys2Proof.Machine

/-! ### The block's vocabulary -/

/-- R100 `S.phase`. -/
inductive Phase where
  | idle
  | busy
  deriving DecidableEq, Repr

/-- R601 `rsp_status`: the source's "success marker or an opaque failure indicator". -/
inductive Status where
  | ok
  | fail
  deriving DecidableEq, Repr

/-- R601 `rsp_cause`, by name; code 7 is reserved and never produced. -/
inductive Cause where
  | none
  | transport
  | shortTransfer
  | notBound
  | alreadyBound
  | illegalCommand
  | illegalArgument
  deriving DecidableEq, Repr

/-- The function a WB micro-operation applies to the working byte (R403): `λw. m1(w, req)` or `λw. m2(w, req)`. -/
inductive WorkFn where
  | m1 (req : BitVec 16)
  | m2 (req : BitVec 8)
  deriving DecidableEq, Repr

/-- The value a WK micro-operation writes (R405: "an 8-bit constant v, or `S.p` for the prescale"). -/
inductive KValue where
  | const (v : Byte)
  | prescale
  deriving DecidableEq, Repr

/-- The micro-operations (R404 to R411). -/
inductive MicroOp where
  | ptr (a : Byte)
  | wk (a : Byte) (v : KValue)
  | rd
  | wb (a : Byte) (f : WorkFn)
  | w5 (a b0 b1 b2 b3 : Byte)
  | bopen (path : Token)
  | bbind (addr7 : BitVec 7)
  | bclose
  deriving DecidableEq, Repr

/-! ### The bus port (R205) -/

/-- The request fields of the five transaction kinds. -/
inductive BusRequest where
  | busOpen (path : Token)
  | busBind (chan : Token) (addr7 : BitVec 7)
  | busWrite (chan : Token) (bytes : List Byte)
  | busRead (chan : Token) (n : Nat)
  | busClose (chan : Token)
  deriving DecidableEq, Repr

/-- The response fields of all five kinds, side by side; a kind's answer means the fields R205 gives that kind and
no others (log 12). `count` is a signed integer; negative is a bus error (R205). -/
structure BusResponse where
  ok : Bool := false
  chan : Token := 0
  count : Int := 0
  byte : Byte := 0
  status : Token := 0
  deriving DecidableEq, Repr

/-- One entry of the environment's log of transactions (R230). -/
inductive BusEvent where
  /-- A transaction of the block, with its answer. -/
  | block (req : BusRequest) (resp : BusResponse)
  /-- A write by another agent on the bus (R221). -/
  | other (bytes : List Byte)
  deriving DecidableEq, Repr

/-! ### The environment -/

/-- The chip's register space (R200) as the double holds it: (address, byte) pairs in one canonical form, see
`Memory.wf`. -/
abbrev Memory := List Host.Cell

/-- The reference register-file double (R230, R235), and the writes of other agents that the test schedules:
`(k, bytes)` happens just before the block's k-th transaction (log 18). -/
structure Double where
  regs : Memory
  ptr : Byte
  inject : List Nat
  others : List (Nat × List Byte)
  deriving DecidableEq, Repr

/-- The double at power-on (R230): nothing listed differs from the power-on contents, `ptr` is 0x00. -/
def Double.powerOn : Double := { regs := [], ptr := 0x00, inject := [], others := [] }

/-- Who answers the bus. -/
inductive BusSource where
  /-- The bus responses are free inputs (R221, R416): the answers to the block's successive requests, in order.
  An exhausted list is a bus that never answers again (R210). -/
  | answers (rs : List BusResponse)
  /-- The reference double answers every request (R230 to R235). -/
  | double (d : Double)
  deriving DecidableEq, Repr

/-- The environment behind the bus port: who answers, the log of every completed transaction in order, and how
many of them were the block's. -/
structure Env where
  source : BusSource
  log : List BusEvent
  txns : Nat
  deriving DecidableEq, Repr

/-! ### The state -/

/-- The machine. `bound` to `rspClose` are R100's record with R300's `rsp_valid`; the others are the model's own
fields and the ports, as INVENTORY.md lists them. -/
structure State where
  /-- R102: the Device Handle exists. -/
  bound : Bool
  /-- R103: the token of the open Bus Channel. -/
  chan : Token
  phase : Phase
  /-- R415: the sequencer's phase counter. -/
  upc : Nat
  /-- R400: the command word latched at acceptance. -/
  cmd : CmdWord
  /-- R403: the script of the latched command. -/
  script : List MicroOp
  /-- R104: the working byte. -/
  w : Byte
  /-- Whether an RD of the present command has written `w` (R104, 93 U10; log 10). -/
  wFresh : Bool
  /-- R105: the prescale value. -/
  p : Byte
  /-- R300: a response is on the response port. -/
  rspValid : Bool
  rspStatus : Status
  rspCause : Cause
  rspClose : Token
  /-- The argument of the next free value (log 8). -/
  free : Nat
  /-- R8's parameters; no step changes them (log 1). -/
  params : Params
  /-- The command port (R300): the words the driver presents, in order (log 5). -/
  cmds : List CmdWord
  /-- Block reset is requested (R700, R701; log 14). -/
  rst : Bool
  env : Env
  deriving DecidableEq, Repr

/-- Why the machine stops. Both are internal errors of the model that no run from reset reaches; command failures
are responses, not faults (R600). -/
inductive Fault where
  /-- Raised by the sequencer for a WB when no RD of the command has written `S.w`. Safe: R104, "If a model ever
  finds `S.w` read before it is written, it must fault and must not use a value." -/
  | workingByteUnwritten
  /-- Raised by the sequencer in BUSY when the script has no micro-operation at `upc`. Safe: R402 completes the
  command before that (log 11). -/
  | scriptExhausted
  deriving DecidableEq, Repr

/-- Why the machine has no meaning for an instruction. -/
inductive Refusal where
  /-- Raised by exec for an instruction that has no meaning yet; none is left. Safe. -/
  | notModelled (mnemonic : String)
  deriving DecidableEq, Repr

/-- The machine right after block reset (R700), with the chip double at power-on and nothing on the command port.
R700 states `phase`, `bound`, `rspValid` and that no request is outstanding. It leaves the other registers of the
block unspecified: the values here are the model's (log 3, log 4). -/
def State.reset : State where
  bound := false
  chan := 0
  phase := .idle
  upc := 0
  cmd := 0
  script := []
  w := 0
  wFresh := false
  p := 0
  rspValid := false
  rspStatus := .ok
  rspCause := .none
  rspClose := 0
  free := 0
  params := Params.default
  cmds := []
  rst := false
  env := { source := .double Double.powerOn, log := [], txns := 0 }

end Sys2Proof.Machine
end

