-- ==== Sys2Proof/Machine/Operands.lean ====
section
/-! DEFINITION. Operand forms and compute functions: register addresses, tick bytes, the MODE1 and MODE2 change
requests with `m1` and `m2`, and the prescale (20_memory, 30_encoding, 41_mode_rmw, 42_frequency). -/

namespace Sys2Proof.Machine

/-! ### Register addresses -/

/-- R200: the addresses that name a register, [0,69] ∪ {250,...,255}. -/
def namesRegister (a : Byte) : Bool := a.toNat ≤ 69 || 250 ≤ a.toNat

/-- R203: `chan_addr(id) = trunc8(REG_LED0_ON_L + 4*id)`. -/
def chanAddr (p : Params) (id : BitVec 8) : Byte := trunc8 ((p.regLed0OnL.toNat : Int) + 4 * id.toNat)

/-! ### Byte order -/

/-- R211: `v[7:0]`, the byte at the lower address. -/
def lowByte (v : BitVec 16) : Byte := v.extractLsb' 0 8

/-- R211: `v[15:8]`. -/
def highByte (v : BitVec 16) : Byte := v.extractLsb' 8 8

/-- R12 `le_bytes(v, 4)`: least-significant byte first. -/
def leBytes4 (v : BitVec 32) : List Byte :=
  [v.extractLsb' 0 8, v.extractLsb' 8 8, v.extractLsb' 16 8, v.extractLsb' 24 8]

/-! ### The MODE1 change request (R305 to R308) -/

/-- R306 `ON(f)`, for the MODE1 bit position of f. -/
def req1On (k : Fin 8) : BitVec 16 := 1#16 <<< (2 * k.val)

/-- R306 `OFF(f)`. -/
def req1Off (k : Fin 8) : BitVec 16 := 1#16 <<< (2 * k.val + 1)

/-- R306: {SLEEP:ON, ALLCALL:OFF, AUTO_INCREMENT:ON}. -/
def req1SleepSetup (p : Params) : BitVec 16 := req1On p.m1.sleep ||| req1Off p.m1.allcall ||| req1On p.m1.ai

/-- R306: {SLEEP:OFF}. -/
def req1Wake (p : Params) : BitVec 16 := req1Off p.m1.sleep

/-- The ON bit of slot k (R305). -/
def slotOn (req : BitVec 16) (k : Nat) : Bool := req.getLsbD (2 * k)

/-- The OFF bit of slot k (R305). -/
def slotOff (req : BitVec 16) (k : Nat) : Bool := req.getLsbD (2 * k + 1)

/-- R307: no slot other than RESTART's has both bits set. -/
def req1Legal (p : Params) (req : BitVec 16) : Bool :=
  (List.range 8).all fun k => k == p.m1.restart.val || !(slotOn req k && slotOff req k)

/-- The byte whose bit k is `f k`. -/
def maskOf (f : Nat → Bool) : Byte :=
  (List.range 8).foldl (fun acc k => if f k then acc ||| bit k else acc) 0

/-- R422's `set`: RESTART's ON and OFF both set the RESTART bit. -/
def m1Set (p : Params) (req : BitVec 16) : Byte :=
  maskOf fun k => slotOn req k || (k == p.m1.restart.val && slotOff req k)

/-- R422's `clr`. -/
def m1Clr (p : Params) (req : BitVec 16) : Byte :=
  maskOf fun k => k != p.m1.restart.val && slotOff req k

/-- R422: `m1(w, req) = (w & ~clr) | set`. -/
def m1 (p : Params) (w : Byte) (req : BitVec 16) : Byte := (w &&& ~~~m1Clr p req) ||| m1Set p req

/-! ### The MODE2 change request (R309, R310) -/

/-- R309: {driver:totem-pole}. -/
def req2Tp : BitVec 8 := 0x01

/-- R309: {driver:totem-pole, output-enable:high-Z}. -/
def req2Freq : BitVec 8 := 0x05

/-- R432's driver test: the 2-bit field is cleared first, then the selected sub-bit set. -/
def m2Driver (p : Params) (v : Byte) (sel : BitVec 2) : Byte :=
  if sel = 0b00 then v
  else if sel = 0b10 then (v &&& ~~~p.m2DrvField) ||| p.m2DrvOd
  else if sel = 0b11 then (v &&& ~~~p.m2DrvField) ||| p.m2DrvHz
  else v &&& ~~~p.m2DrvField

/-- R432, R433: the "request high-Z" test, by polarity. -/
def m2OeHz (p : Params) (v : Byte) : Byte :=
  match p.oePolarity with
  | .source => v &&& ~~~p.m2OeBit
  | .corrected => v ||| p.m2OeBit

/-- R432, R433: the "request totem-pole" test, by polarity. -/
def m2OeTp (p : Params) (v : Byte) : Byte :=
  match p.oePolarity with
  | .source => v ||| p.m2OeBit
  | .corrected => v &&& ~~~p.m2OeBit

/-- R432: the tests in the source's order; req[5] (OCH) is accepted and has no effect. -/
def m2 (p : Params) (w : Byte) (req : BitVec 8) : Byte :=
  let v1 := m2Driver p w (req.extractLsb' 0 2)
  let v2 := if req.getLsbD 2 then m2OeHz p v1 else v1
  let v3 := if req.getLsbD 3 then m2OeTp p v2 else v2
  if req.getLsbD 4 then v3 ||| p.m2Invrt else v3

/-- The byte a WB micro-operation writes for the working byte (R407). -/
def applyWork (p : Params) (f : WorkFn) (w : Byte) : Byte :=
  match f with
  | .m1 req => m1 p w req
  | .m2 req => m2 p w req

/-! ### The prescale -/

/-- R452's q: `(OSC_HZ div PERIOD_TICKS) div freq`. -/
def prescaleQuotient (p : Params) (freq : Nat) : Nat := p.oscHz / p.periodTicks / freq

/-- R452: `prescale(f) = trunc8(q - 1)`, for freq ≥ 1. -/
def prescale (p : Params) (freq : Nat) : Byte := trunc8 ((prescaleQuotient p freq : Int) - 1)

end Sys2Proof.Machine
end

