-- ==== Sys2Proof/Machine/Flags.lean ====
section
/-! DEFINITION. The block has no condition codes (10_state R106). Its only status is the response: the success test
of each micro-operation, the cause of its failure, and the response port's codes (40_sequencer R402 to R411,
60_exceptions R601). -/

namespace Sys2Proof.Machine

/-- R601: the bit `rsp_status`. -/
def Status.code : Status → BitVec 1
  | .ok => 0
  | .fail => 1

/-- R601: the code `rsp_cause[2:0]`. -/
def Cause.code : Cause → BitVec 3
  | .none => 0
  | .transport => 1
  | .shortTransfer => 2
  | .notBound => 3
  | .alreadyBound => 4
  | .illegalCommand => 5
  | .illegalArgument => 6

/-- The success test of a micro-operation on the bus's response (R404 to R411, R206 to R209). -/
def MicroOp.succeeds (op : MicroOp) (r : BusResponse) : Bool :=
  match op with
  | .ptr _ => r.count == 1
  | .wk _ _ => r.count == 2
  | .rd => r.count == 1
  | .wb _ _ => r.count == 2
  | .w5 _ _ _ _ _ => r.count == 5
  | .bopen _ => r.ok
  | .bbind _ => r.ok
  | .bclose => true

/-- The cause when a micro-operation fails (R404 to R410). BCLOSE always succeeds (R411). -/
def MicroOp.failCause (op : MicroOp) : Cause :=
  match op with
  | .bopen _ => .transport
  | .bbind _ => .transport
  | .ptr _ => .shortTransfer
  | .wk _ _ => .shortTransfer
  | .rd => .shortTransfer
  | .wb _ _ => .shortTransfer
  | .w5 _ _ _ _ _ => .shortTransfer
  | .bclose => .none

/-- R300: `cmd_ready = 1` exactly when `S.phase = IDLE`. -/
def State.cmdReady (s : State) : Bool := s.phase == .idle

/-- R300: `cmd_valid`, a word is presented. -/
def State.cmdValid (s : State) : Bool := !s.cmds.isEmpty

end Sys2Proof.Machine
end

