-- ==== Sys2Proof/Machine/Ops.lean ====
section
/-! DEFINITION. The named operations: the register space and the reference double (20_memory R230 to R235), the
answer of the bus, acceptance, responses and failures (40_sequencer R400, R412, R413; 60_exceptions R607, R608),
and block reset (70_reset R700, R701). -/

namespace Sys2Proof.Machine

/-! ### The register space -/

/-- R230: the power-on contents of a register address. The values of R110 to R117 stand at the default addresses
of R202, for `Config.channels` channels (log 27); every address not listed there holds 0x00 (log 16). -/
def powerOn (a : Nat) : Byte :=
  if a = 0x00 then 0x11
  else if a = 0x01 then 0x04
  else if a = 0x02 then 0xE2
  else if a = 0x03 then 0xE4
  else if a = 0x04 then 0xE8
  else if a = 0x05 then 0xE0
  else if 0x06 ≤ a ∧ a < 0x06 + 4 * Config.channels ∧ (a - 0x06) % 4 = 3 then 0x10
  else if a = 0xFE then 0x1E
  else 0x00

/-- The byte at an address; an unlisted address reads as its power-on contents. -/
def Memory.get : Memory → Nat → Byte
  | [], a => powerOn a
  | (b, x) :: rest, a => if a = b then x else Memory.get rest a

/-- The memory with one byte replaced, in canonical form again: writing what an unlisted address reads as removes
the entry. -/
def Memory.put : Memory → Nat → Byte → Memory
  | [], a, v => if v = powerOn a then [] else [(a, v)]
  | (b, x) :: rest, a, v =>
    if a < b then (if v = powerOn a then (b, x) :: rest else (a, v) :: (b, x) :: rest)
    else if a = b then (if v = powerOn a then rest else (a, v) :: rest)
    else (b, x) :: Memory.put rest a v

/-- Every entry lies at `lo` or above, below 256 (R200: one byte of address), in strictly rising order, and
differs from the power-on contents. -/
def Memory.wfFrom : Nat → Memory → Bool
  | _, [] => true
  | lo, (a, v) :: rest => decide (lo ≤ a) && decide (a < 256) && v != powerOn a && Memory.wfFrom (a + 1) rest

/-- The canonical form: equal register spaces are equal lists. -/
def Memory.wf (m : Memory) : Bool := Memory.wfFrom 0 m

/-! ### The reference double -/

/-- One register of the double. -/
def Double.reg (d : Double) (a : Byte) : Byte := Memory.get d.regs a.toNat

/-- `regs[REG_MODE1][M1_BIT(AI)]` (R232). -/
def Double.autoIncrement (p : Params) (d : Double) : Bool := (d.reg p.regMode1).getLsbD p.m1.ai.val

/-- `regs[REG_MODE1][M1_BIT(SLEEP)]` (R233). -/
def Double.asleep (p : Params) (d : Double) : Bool := (d.reg p.regMode1).getLsbD p.m1.sleep.val

/-- R233: `store(a, d)` at the pointer. -/
def Double.store (p : Params) (d : Double) (v : Byte) : Double :=
  if d.ptr = p.regPreScale ∧ d.asleep p = false then d
  else if d.ptr = p.regMode1 then
    { d with regs := Memory.put d.regs d.ptr.toNat (v &&& ~~~bit p.m1.restart.val) }
  else { d with regs := Memory.put d.regs d.ptr.toNat v }

/-- R232: the pointer moves on, modulo 256, if AI is set after the store. -/
def Double.advance (p : Params) (d : Double) : Double :=
  if d.autoIncrement p then { d with ptr := d.ptr + 1 } else d

/-- R232's loop over the data bytes: after the last byte the pointer stays. -/
def Double.storeAll (p : Params) : Double → List Byte → Double
  | d, [] => d
  | d, v :: rest =>
    match rest with
    | [] => d.store p v
    | _ :: _ => Double.storeAll p ((d.store p v).advance p) rest

/-- R231, R232: a BusWrite that is not made to fail. -/
def Double.write (p : Params) (d : Double) (bytes : List Byte) : Double :=
  match bytes with
  | [] => d
  | a :: data => Double.storeAll p { d with ptr := a } data

/-- R231 to R235: the double's answer to the block's k-th transaction, and the double afterwards. The pointer after a
BusWrite or BusRead that was made to fail is a free value (93 U5; log 15). -/
def Double.respond (p : Params) (k : Nat) (d : Double) (req : BusRequest) : BusResponse × Double :=
  match req with
  | .busOpen _ => if k ∈ d.inject then ({ ok := false }, d) else ({ ok := true, chan := 0x00000001 }, d)
  | .busBind _ _ => ({ ok := !decide (k ∈ d.inject) }, d)
  | .busWrite _ bytes =>
    if k ∈ d.inject then ({ count := 0 }, { d with ptr := Config.freePointer k })
    else ({ count := bytes.length }, d.write p bytes)
  | .busRead _ n =>
    if k ∈ d.inject then ({ count := 0 }, { d with ptr := Config.freePointer k })
    else ({ count := n, byte := d.reg d.ptr }, d)
  | .busClose _ => ({ status := 0 }, d)

/-- The other agents' writes scheduled just before the block's k-th transaction (R221, R223; log 18). -/
def Double.othersAt (d : Double) (k : Nat) : List (List Byte) :=
  (d.others.filter fun x => x.1 == k).map (·.2)

/-- Those writes done, in order. -/
def Double.runOthers (p : Params) (d : Double) (writes : List (List Byte)) : Double :=
  writes.foldl (fun d bytes => d.write p bytes) d

/-! ### The bus -/

/-- The environment answers a request, or does not (`none`: the block waits, R210). -/
def Env.answer (p : Params) (e : Env) (req : BusRequest) : Option (BusResponse × Env) :=
  match e.source with
  | .answers [] => none
  | .answers (r :: rest) =>
    some (r, { source := .answers rest, log := e.log ++ [.block req r], txns := e.txns + 1 })
  | .double d =>
    let writes := d.othersAt e.txns
    let a := (d.runOthers p writes).respond p e.txns req
    some (a.1, { source := .double a.2, log := e.log ++ writes.map .other ++ [.block req a.1],
                 txns := e.txns + 1 })

/-- The environment answers a sequence of requests, or stops answering before the end of it. -/
def Env.answerAll (p : Params) : Env → List BusRequest → Option (List BusResponse × Env)
  | e, [] => some ([], e)
  | e, q :: qs =>
    match e.answer p q with
    | none => none
    | some (r, e1) =>
      match Env.answerAll p e1 qs with
      | none => none
      | some (rs, e2) => some (r :: rs, e2)

/-- The block's own transactions of the log, in order. -/
def Env.blockTxns (e : Env) : List (BusRequest × BusResponse) :=
  e.log.filterMap fun
    | .block q r => some (q, r)
    | .other _ => none

/-- The environment when the block is reset in BUSY: the response to the outstanding request, if it comes at all,
comes late and is ignored (R701, 93 U22); the chip is not touched (log 14). -/
def Env.dropAnswer (e : Env) : Env :=
  match e.source with
  | .answers rs => { e with source := .answers rs.tail }
  | .double _ => e

/-- The double's register space is in canonical form. -/
def Env.wf (e : Env) : Bool :=
  match e.source with
  | .answers _ => true
  | .double d => Memory.wf d.regs

/-! ### Acceptance, responses, failures, reset -/

/-- R300, R400: the block takes the word at the head of the command port and latches it; the response port is free
for this command's response (log 6). This is also the only "return" from a failure (R608). -/
def State.latch (s : State) (word : CmdWord) (rest : List CmdWord) : State :=
  { s with cmd := word, cmds := rest, rspValid := false }

/-- R400: the command passed its pre-checks; its script is loaded and the block is BUSY at micro-operation 0. -/
def State.start (s : State) (script : List MicroOp) : State :=
  { s with script := script, upc := 0, phase := .busy, wFresh := false }

/-- The environment after a transaction. -/
def State.withEnv (s : State) (e : Env) : State := { s with env := e }

/-- `upc <- n` (R11). -/
def State.withUpc (s : State) (n : Nat) : State := { s with upc := n }

/-- R450, R490: the prescale value is computed at acceptance. -/
def State.loadPrescale (s : State) (v : Byte) : State := { s with p := v }

/-- A response goes out and the block is IDLE (R412, R413, R607). -/
def State.respond (s : State) (status : Status) (cause : Cause) : State :=
  { s with phase := .idle, rspValid := true, rspStatus := status, rspCause := cause }

/-- R412, 93 U12: after any command other than CLOSE the value of `S.rsp_close` is unspecified (log 8). -/
def State.looseClose (s : State) : State :=
  { s with rspClose := Config.freeRspClose s.free, free := s.free + 1 }

/-- `raise Fault(cause)` and `raise Fail(cause)` (R11, R607): the one way a command fails. Nothing is saved, there
is no handler and no mode. -/
def State.raise (s : State) (cause : Cause) : State := s.looseClose.respond .fail cause

/-- R412: completion of a command whose last micro-operation is `op`; CLOSE alone has a close status. -/
def State.complete (s : State) (op : MicroOp) : State :=
  match op with
  | .bclose => s.respond .ok .none
  | .ptr _ | .wk _ _ | .rd | .wb _ _ | .w5 _ _ _ _ _ | .bopen _ | .bbind _ => s.looseClose.respond .ok .none

/-- R401, item 2: the command goes on if the block is bound, and fails NOT_BOUND otherwise. -/
def State.ifBound (s : State) (go : State) : State := if s.bound then go else s.raise .notBound

/-- R700, R701: block reset. No transaction is issued and the chip is not touched; a script is abandoned, a binding
is abandoned without BusClose. The registers R700 leaves unspecified take the reset values of log 3. -/
def State.blockReset (s : State) : State :=
  { s with
    bound := false, chan := 0, phase := .idle, upc := 0, cmd := 0, script := [], w := 0, wFresh := false, p := 0,
    rspValid := false, rspStatus := .ok, rspCause := .none, rspClose := 0, rst := false,
    env := match s.phase with
      | .idle => s.env
      | .busy => s.env.dropAnswer }

end Sys2Proof.Machine
end

