-- ==== Sys2Proof/Machine/Sequencer.lean ====
section
/-! DEFINITION. The scripts (40_sequencer R403) and the step of the sequencer in BUSY (R402, R404 to R413). -/

namespace Sys2Proof.Machine

/-! ### Scripts -/

/-- R403 `EMPTY(a)`: the pointer-reset form of an empty request. -/
def scriptEmpty (p : Params) (a : Byte) : List MicroOp :=
  match p.emptyForm with
  | .pointerOnly => [.ptr a]
  | .writeZero => [.wk a (.const 0x00)]

/-- R403 `RMW1(req)`. -/
def scriptRmw1 (p : Params) (req : BitVec 16) : List MicroOp :=
  if req = 0 then scriptEmpty p p.regMode1
  else [.ptr p.regMode1, .rd, .wb p.regMode1 (.m1 req)]

/-- R403 `RMW2(req)`. -/
def scriptRmw2 (p : Params) (req : BitVec 8) : List MicroOp :=
  if req = 0 then scriptEmpty p p.regMode2
  else [.ptr p.regMode2, .rd, .wb p.regMode2 (.m2 req)]

/-- R403 `SF`, R454: sleep setup, prescale write, wake, MODE2. -/
def scriptSf (p : Params) : List MicroOp :=
  scriptRmw1 p (req1SleepSetup p) ++ [.wk p.regPreScale .prescale] ++ scriptRmw1 p (req1Wake p) ++
    scriptRmw2 p req2Freq

/-- R403, R471: SET_CHANNEL's one micro-operation. -/
def scriptChannel (p : Params) (id : BitVec 8) (on off : BitVec 16) : List MicroOp :=
  [.w5 (chanAddr p id) (lowByte on) (highByte on) (lowByte off) (highByte off)]

/-- R403, R491: OPEN's seventeen micro-operations. -/
def scriptOpen (p : Params) (path : Token) (addr7 : BitVec 7) : List MicroOp :=
  [.bopen path, .bbind addr7] ++ scriptRmw1 p 0 ++ scriptRmw2 p 0 ++ scriptRmw2 p req2Tp ++ scriptSf p

/-- R403, R494: CLOSE's one micro-operation. -/
def scriptClose : List MicroOp := [.bclose]

/-- R403's table: the script of a command. -/
def scriptOf (p : Params) : Instr → List MicroOp
  | .openDevice path addr7 => scriptOpen p path addr7
  | .closeDevice => scriptClose
  | .applyMode1 req16 => scriptRmw1 p req16
  | .applyMode2 req8 => scriptRmw2 p req8
  | .setFrequency _ => scriptSf p
  | .setChannel id on off => scriptChannel p id on off

/-! ### One micro-operation -/

/-- The bus request of a micro-operation (R404 to R411), from the block's registers. -/
def MicroOp.request (s : State) (op : MicroOp) : BusRequest :=
  match op with
  | .ptr a => .busWrite s.chan [a]
  | .wk a (.const v) => .busWrite s.chan [a, v]
  | .wk a .prescale => .busWrite s.chan [a, s.p]
  | .rd => .busRead s.chan 1
  | .wb a f => .busWrite s.chan [a, applyWork s.params f s.w]
  | .w5 a b0 b1 b2 b3 => .busWrite s.chan [a, b0, b1, b2, b3]
  | .bopen path => .busOpen path
  | .bbind addr7 => .busBind s.chan addr7
  | .bclose => .busClose s.chan

/-- R104: whether the micro-operation reads `S.w`. -/
def MicroOp.readsW : MicroOp → Bool
  | .wb _ _ => true
  | .ptr _ | .wk _ _ | .rd | .w5 _ _ _ _ _ | .bopen _ | .bbind _ | .bclose => false

/-- The request that is outstanding on the bus port: the one of `script[upc]` in BUSY, none in IDLE (R402, R219). -/
def State.outstanding (s : State) : Option BusRequest :=
  match s.phase with
  | .idle => none
  | .busy => s.script[s.upc]?.map (·.request s)

/-- The effect of a micro-operation that succeeded (R404 to R411). BCLOSE leaves `S.chan` as it is: 93 U12 gives it any
value while unbound, and keeping the token is the model's choice (log 26). -/
def MicroOp.effect (op : MicroOp) (r : BusResponse) (s : State) : State :=
  match op with
  | .rd => { s with w := r.byte, wFresh := true }
  | .bopen _ => { s with chan := r.chan }
  | .bbind _ => { s with bound := true }
  | .bclose => { s with rspClose := r.status, bound := false }
  | .ptr _ => s
  | .wk _ _ => s
  | .wb _ _ => s
  | .w5 _ _ _ _ _ => s

/-- What a failed micro-operation leaves open: after a failed BusOpen `S.chan` is not meaningful (R492, 93 U12;
log 9); every other register keeps its value (R413, 92 D32), `S.chan` after a failed BusBind too (log 26). -/
def MicroOp.spoil (op : MicroOp) (s : State) : State :=
  match op with
  | .bopen _ => { s with chan := Config.freeChan s.free, free := s.free + 1 }
  | .ptr _ | .wk _ _ | .rd | .wb _ _ | .w5 _ _ _ _ _ | .bbind _ | .bclose => s

/-- R402's step to the next micro-operation, or completion (R412) after the last. -/
def State.advance (s : State) (op : MicroOp) : State :=
  if s.upc + 1 = s.script.length then (s.withUpc (s.upc + 1)).complete op else s.withUpc (s.upc + 1)

/-- The bus answered the micro-operation (R402): its effect and the next one, or the abort of R413. -/
def MicroOp.finish (op : MicroOp) (r : BusResponse) (s : State) : State :=
  if op.succeeds r then (op.effect r s).advance op else (op.spoil s).raise op.failCause

/-- One step of the sequencer in BUSY (R402): the micro-operation's request, its answer, its outcome. With no
answer the block waits, for ever if need be (R210, R605). -/
def runMicroOp (s : State) : Host.Outcome State Fault Refusal :=
  match s.script[s.upc]? with
  | none => .fault .scriptExhausted
  | some op =>
    if op.readsW && !s.wFresh then .fault .workingByteUnwritten
    else
      match s.env.answer s.params (op.request s) with
      | none => .next s
      | some (r, e) => .next (op.finish r (s.withEnv e))

end Sys2Proof.Machine
end

