-- ==== Sys2Proof/Machine/Channel.lean ====
section
/-! DEFINITION. SET_CHANNEL (43_channel_writer): its acceptance (40_sequencer R400). -/

namespace Sys2Proof.Machine

/-- SET_CHANNEL (R470, R473, R474): NOT_BOUND, then the one 5-byte write; no other operand is checked. -/
def execSetChannel (id : BitVec 8) (on off : BitVec 16) (s : State) : Host.Outcome State Fault Refusal :=
  .next (s.ifBound (s.start (scriptChannel s.params id on off)))

end Sys2Proof.Machine
end

