-- ==== Sys2Proof/Machine/Frequency.lean ====
section
/-! DEFINITION. SET_FREQUENCY (42_frequency): its acceptance (40_sequencer R400). -/

namespace Sys2Proof.Machine

/-- SET_FREQUENCY (R450, R451): NOT_BOUND, then ILLEGAL_ARGUMENT for freq = 0, then `S.p <- prescale(freq)` and the
script `SF`. -/
def execSetFrequency (freq : BitVec 32) (s : State) : Host.Outcome State Fault Refusal :=
  .next (s.ifBound
    (if freq = 0 then s.raise .illegalArgument
     else (s.loadPrescale (prescale s.params freq.toNat)).start (scriptSf s.params)))

end Sys2Proof.Machine
end

