-- ==== Sys2Proof/Machine/Lifecycle.lean ====
section
/-! DEFINITION. OPEN and CLOSE (44_lifecycle): their acceptance (40_sequencer R400). -/

namespace Sys2Proof.Machine

/-- OPEN (R490): ALREADY_BOUND while bound, which leaves the binding untouched; otherwise
`S.p <- prescale(DEFAULT_FREQ)` and the seventeen micro-operations. -/
def execOpen (path : Token) (addr7 : BitVec 7) (s : State) : Host.Outcome State Fault Refusal :=
  .next (
    if s.bound then s.raise .alreadyBound
    else (s.loadPrescale (prescale s.params s.params.defaultFreq)).start (scriptOpen s.params path addr7))

/-- CLOSE (R494): NOT_BOUND, then `[BCLOSE]`. -/
def execClose (s : State) : Host.Outcome State Fault Refusal :=
  .next (s.ifBound (s.start scriptClose))

end Sys2Proof.Machine
end

