-- ==== Sys2Proof/Machine/ModeRmw.lean ====
section
/-! DEFINITION. APPLY_MODE1 and APPLY_MODE2 (41_mode_rmw). The meaning of a command is its acceptance (40_sequencer
R400): pre-checks in R401's order, then its script, which the sequencer runs. -/

namespace Sys2Proof.Machine

/-- APPLY_MODE1 (R420, R426): NOT_BOUND, then ILLEGAL_ARGUMENT for a non-RESTART slot with both bits set (R307),
then `RMW1(req16)`. -/
def execApplyMode1 (req16 : BitVec 16) (s : State) : Host.Outcome State Fault Refusal :=
  .next (s.ifBound
    (if req1Legal s.params req16 then s.start (scriptRmw1 s.params req16) else s.raise .illegalArgument))

/-- APPLY_MODE2 (R430, R436): NOT_BOUND, then `RMW2(req8)`. A request with a reserved bit has no legal word, so a
term that carries one is the illegal command of R304 (log 20). -/
def execApplyMode2 (req8 : BitVec 8) (s : State) : Host.Outcome State Fault Refusal :=
  .next (
    if (Instr.applyMode2 req8).wellFormed then s.ifBound (s.start (scriptRmw2 s.params req8))
    else s.raise .illegalCommand)

end Sys2Proof.Machine
end

