-- ==== Sys2Proof/Machine/Dispatch.lean ====
section
/-! DEFINITION. One arm per command (spec/opcode_table.json). -/

namespace Sys2Proof.Machine

def exec (i : Instr) (s : State) : Host.Outcome State Fault Refusal :=
  match i with
  | .openDevice path addr7 => Sys2Proof.Machine.execOpen path addr7 s
  | .closeDevice => Sys2Proof.Machine.execClose s
  | .applyMode1 req16 => Sys2Proof.Machine.execApplyMode1 req16 s
  | .applyMode2 req8 => Sys2Proof.Machine.execApplyMode2 req8 s
  | .setFrequency freq => Sys2Proof.Machine.execSetFrequency freq s
  | .setChannel id on off => Sys2Proof.Machine.execSetChannel id on off s

end Sys2Proof.Machine
end

