-- ==== Sys2Proof/Machine/Accept.lean ====
section
/-! DEFINITION. The command port in IDLE (30_encoding R300, R304; 40_sequencer R400). -/

namespace Sys2Proof.Machine

/-- R400, R304: the latched word is decoded and its command's acceptance runs; an illegal word is answered
ILLEGAL_COMMAND, whatever the reason. -/
def acceptWord (word : CmdWord) (s : State) : Host.Outcome State Fault Refusal :=
  match decode word with
  | .ok i => exec i s
  | .error .reservedOpcode => .next (s.raise .illegalCommand)
  | .error .reservedBit => .next (s.raise .illegalCommand)

/-- In IDLE the block accepts the word at the head of the command port, or waits for one (R300). -/
def acceptCommand (s : State) : Host.Outcome State Fault Refusal :=
  match s.cmds with
  | [] => .next s
  | word :: rest => acceptWord word (s.latch word rest)

/-- The command port with one word put at its head and the block ready to take it (log 5). -/
def State.present (s : State) (word : CmdWord) : State :=
  { s with cmds := word :: s.cmds, phase := .idle, rst := false }

end Sys2Proof.Machine
end

