-- ==== Sys2Proof/Machine/Step.lean ====
section
/-! DEFINITION. One step of the machine: block reset, acceptance of a command, one micro-operation, or waiting. -/

namespace Sys2Proof.Machine

/-- A requested block reset comes first (R701). In IDLE the block accepts a command (R300, R400) or waits for one; in
BUSY it runs the micro-operation at `upc` (R402). -/
def step (s : State) : Host.Outcome State Fault Refusal :=
  if s.rst then .next s.blockReset
  else
    match s.phase with
    | .idle => acceptCommand s
    | .busy => runMicroOp s

/-- Steps in a row, stopping at a fault or a refusal. -/
def runSteps : Nat → State → Host.Outcome State Fault Refusal
  | 0, s => .next s
  | n + 1, s =>
    match step s with
    | .next t => runSteps n t
    | .fault r => .fault r
    | .refused r => .refused r

/-- The machine that takes and runs the instruction whose table bits are `w` at its very next step (log 5). -/
def State.withFetchWord (s : State) (nbits w : Nat) : State :=
  s.present (BitVec.ofNat 64 (w % 2 ^ nbits))

end Sys2Proof.Machine
end

