-- ==== Sys2Proof/Machine/Assembler.lean ====
section
/-! DEFINITION. The assembler's lines and pseudo-commands (30_encoding R313, R314), as abstract syntax. The block
never sees them (R314); a line stands for an instruction, whose word `encode` gives (log 22). -/

namespace Sys2Proof.Machine

/-- R313 `<flag>`; AUTO_INCREMENT is a second spelling of AI. -/
inductive Mode1Flag where
  | allcall
  | sub1
  | sub2
  | sub3
  | sleep
  | ai
  | extclk
  | restart
  deriving DecidableEq, Repr

/-- The MODE1 bit position of a flag (R8 `M1_BIT`). -/
def Mode1Flag.position (p : Params) : Mode1Flag → Fin 8
  | .allcall => p.m1.allcall
  | .sub1 => p.m1.sub1
  | .sub2 => p.m1.sub2
  | .sub3 => p.m1.sub3
  | .sleep => p.m1.sleep
  | .ai => p.m1.ai
  | .extclk => p.m1.extclk
  | .restart => p.m1.restart

/-- One item of a braced MODE1 set: `<flag>:ON` or `<flag>:OFF`. -/
structure Mode1Item where
  flag : Mode1Flag
  on : Bool
  deriving DecidableEq, Repr

/-- R306's mask of an item. -/
def Mode1Item.mask (p : Params) (x : Mode1Item) : BitVec 16 :=
  if x.on then req1On (x.flag.position p) else req1Off (x.flag.position p)

/-- R313: `DRIVER:TP`, `DRIVER:OD` or `DRIVER:HZ`. -/
inductive Driver where
  | tp
  | od
  | hz
  deriving DecidableEq, Repr

/-- R309 `DRV_SEL`. -/
def Driver.sel : Driver → BitVec 8
  | .tp => 0b01
  | .od => 0b10
  | .hz => 0b11

/-- One item of a braced MODE2 set. -/
inductive Mode2Item where
  | driver (d : Driver)
  | oeHz
  | oeTp
  | invert
  | och
  deriving DecidableEq, Repr

/-- R309's bits of an item. -/
def Mode2Item.mask : Mode2Item → BitVec 8
  | .driver d => d.sel
  | .oeHz => 0x04
  | .oeTp => 0x08
  | .invert => 0x10
  | .och => 0x20

/-- R314's pseudo-commands. -/
inductive Pseudo where
  | ptrReset1
  | ptrReset2
  | sleep
  | wake
  | restart
  deriving DecidableEq, Repr

/-- R313's lines; `mode1Set` and `mode2Set` are the braced forms. -/
inductive AsmLine where
  | open_ (path : Token) (addr7 : BitVec 7)
  | close
  | mode1 (req16 : BitVec 16)
  | mode1Set (items : List Mode1Item)
  | mode2 (req8 : BitVec 8)
  | mode2Set (items : List Mode2Item)
  | freq (freq : BitVec 32)
  | chan (id : BitVec 8) (on off : BitVec 16)
  | pseudo (p : Pseudo)
  deriving DecidableEq, Repr

/-- R314's expansions. -/
def Pseudo.expand : Pseudo → AsmLine
  | .ptrReset1 => .mode1Set []
  | .ptrReset2 => .mode2Set []
  | .sleep => .mode1Set [⟨.sleep, true⟩]
  | .wake => .mode1Set [⟨.sleep, false⟩]
  | .restart => .mode1Set [⟨.restart, true⟩]

/-- R313: "Naming one flag twice with different values is an assembly error." -/
def mode1SetConsistent (items : List Mode1Item) : Bool :=
  items.all fun x => items.all fun y => x.flag != y.flag || x.on == y.on

/-- Two different DRIVER items in one set are an error as well (log 22). -/
def mode2SetConsistent (items : List Mode2Item) : Bool :=
  items.all fun x => items.all fun y =>
    match x, y with
    | .driver d, .driver e => d == e
    | _, _ => true

/-- R313: "A braced MODE1 set assembles to the OR of the rule R306 masks." -/
def assembleMode1 (p : Params) (items : List Mode1Item) : Option Instr :=
  if mode1SetConsistent items then
    some (.applyMode1 (items.foldl (fun acc x => acc ||| x.mask p) 0))
  else none

/-- R313: "A braced MODE2 set assembles per rule R309." -/
def assembleMode2 (items : List Mode2Item) : Option Instr :=
  if mode2SetConsistent items then
    some (.applyMode2 (items.foldl (fun acc x => acc ||| x.mask) 0))
  else none

/-- The instruction of a line that is no pseudo-command. -/
def assembleCore (p : Params) : AsmLine → Option Instr
  | .open_ path addr7 => some (.openDevice path addr7)
  | .close => some .closeDevice
  | .mode1 req16 => some (.applyMode1 req16)
  | .mode1Set items => assembleMode1 p items
  | .mode2 req8 => some (.applyMode2 req8)
  | .mode2Set items => assembleMode2 items
  | .freq f => some (.setFrequency f)
  | .chan id on off => some (.setChannel id on off)
  | .pseudo _ => none

/-- The instruction of a line, or an assembly error. -/
def assemble (p : Params) : AsmLine → Option Instr
  | .pseudo x => assembleCore p x.expand
  | line => assembleCore p line

end Sys2Proof.Machine
end

