-- ==== Sys2Proof/Safety.lean ====
section
/-! DEFINITION. What claims are stated in: responses, the transactions of a command, the register addresses a
command names, and the machine's invariant. -/

namespace Sys2Proof.Machine

/-! ### Responses and requests -/

/-- A successful response is on the response port and the block is IDLE (R412). -/
abbrev State.RespondsOk (s : State) : Prop :=
  s.phase = .idle ∧ s.rspValid = true ∧ s.rspStatus = .ok ∧ s.rspCause = .none

/-- A failure response with its cause is on the response port and the block is IDLE (R607). -/
abbrev State.RespondsFail (s : State) (c : Cause) : Prop :=
  s.phase = .idle ∧ s.rspValid = true ∧ s.rspStatus = .fail ∧ s.rspCause = c

/-- R601: the causes of pre-check faults, codes 3 to 6. -/
def preCheckCauses : List Cause := [.notBound, .alreadyBound, .illegalCommand, .illegalArgument]

/-- R214: the only requests to the chip's registers are writes of 1, 2 or 5 bytes and reads of 1 byte. -/
def BusRequest.widthOk : BusRequest → Bool
  | .busWrite _ bytes => bytes.length == 1 || bytes.length == 2 || bytes.length == 5
  | .busRead _ n => n == 1
  | .busOpen _ => true
  | .busBind _ _ => true
  | .busClose _ => true

/-- The register address a micro-operation names, if it names one (R201). -/
def MicroOp.address : MicroOp → Option Byte
  | .ptr a => some a
  | .wk a _ => some a
  | .wb a _ => some a
  | .w5 a _ _ _ _ => some a
  | .rd => none
  | .bopen _ => none
  | .bbind _ => none
  | .bclose => none

/-- The channel id of a command, if it has one. -/
def channelOf : Instr → Option (BitVec 8)
  | .setChannel id _ _ => some id
  | .openDevice _ _ => none
  | .closeDevice => none
  | .applyMode1 _ => none
  | .applyMode2 _ => none
  | .setFrequency _ => none

/-- The two states have the same response registers (R100, R300). -/
abbrev SameResponse (s t : State) : Prop :=
  t.rspValid = s.rspValid ∧ t.rspStatus = s.rspStatus ∧ t.rspCause = s.rspCause ∧ t.rspClose = s.rspClose

/-- The two states have the same binding (the Device Handle of R13). -/
abbrev SameBinding (s t : State) : Prop := t.bound = s.bound ∧ t.chan = s.chan

/-- The two states have the same command latched and waiting, the same parameters, and no other reset request. -/
abbrev SameCommandSide (s t : State) : Prop :=
  t.cmd = s.cmd ∧ t.cmds = s.cmds ∧ t.params = s.params ∧ t.rst = s.rst

/-- R302, R304, field by field: the op is reserved or a reserved bit of its row is set. -/
def illegalWord (w : CmdWord) : Bool :=
  match (w.extractLsb' 0 3).toNat with
  | 0 => !(w.extractLsb' 3 5 == 0 && w.extractLsb' 15 1 == 0 && w.extractLsb' 16 16 == 0)
  | 1 => !(w.extractLsb' 3 61 == 0)
  | 2 => !(w.extractLsb' 3 5 == 0 && w.extractLsb' 8 8 == 0 && w.extractLsb' 32 32 == 0)
  | 3 => !(w.extractLsb' 3 5 == 0 && w.extractLsb' 8 8 == 0 && w.extractLsb' 22 2 == 0 && w.extractLsb' 24 40 == 0)
  | 4 => !(w.extractLsb' 3 5 == 0 && w.extractLsb' 8 24 == 0)
  | 5 => !(w.extractLsb' 3 5 == 0 && w.extractLsb' 48 16 == 0)
  | _ => true

/-! ### The transactions of a command -/

/-- R421, R431: the bytes of the one write of an empty request. -/
def emptyBytes (p : Params) (a : Byte) : List Byte :=
  match p.emptyForm with
  | .pointerOnly => [a]
  | .writeZero => [a, 0x00]

/-- R421, R431: what an empty request leaves in its register of an undisturbed chip: the register as it was, or 0x00
under WRITE_ZERO. -/
def emptiedRegister (p : Params) (x : Byte) : Byte :=
  match p.emptyForm with
  | .pointerOnly => x
  | .writeZero => 0x00

/-- R423's three requests, for the byte read. -/
def mode1Requests (p : Params) (chan : Token) (req : BitVec 16) (byte : Byte) : List BusRequest :=
  [.busWrite chan [p.regMode1], .busRead chan 1, .busWrite chan [p.regMode1, m1 p byte req]]

/-- R435's three requests, for the byte read. -/
def mode2Requests (p : Params) (chan : Token) (req : BitVec 8) (byte : Byte) : List BusRequest :=
  [.busWrite chan [p.regMode2], .busRead chan 1, .busWrite chan [p.regMode2, m2 p byte req]]

/-- R454's ten requests, for the bytes read at its steps 2, 6 and 9. -/
def frequencyRequests (p : Params) (chan : Token) (pre byte2 byte6 byte9 : Byte) : List BusRequest :=
  mode1Requests p chan (req1SleepSetup p) byte2 ++ [.busWrite chan [p.regPreScale, pre]] ++
    mode1Requests p chan (req1Wake p) byte6 ++ mode2Requests p chan req2Freq byte9

/-! ### Scripts -/

/-- What is left of a script runs without reading `S.w` unwritten (R104), and sends a register transaction or a
BusClose only while bound, a BusOpen or BusBind only while unbound (R102, R490). `fresh` and `bound` are the block's at the
head of the list. -/
def scriptTailOk : Bool → Bool → List MicroOp → Bool
  | _, _, [] => true
  | _, bound, .rd :: rest => bound && scriptTailOk true bound rest
  | fresh, bound, .wb _ _ :: rest => fresh && bound && scriptTailOk fresh bound rest
  | fresh, bound, .ptr _ :: rest => bound && scriptTailOk fresh bound rest
  | fresh, bound, .wk _ _ :: rest => bound && scriptTailOk fresh bound rest
  | fresh, bound, .w5 _ _ _ _ _ :: rest => bound && scriptTailOk fresh bound rest
  | fresh, bound, .bopen _ :: rest => !bound && scriptTailOk fresh bound rest
  | fresh, bound, .bbind _ :: rest => !bound && scriptTailOk fresh true rest
  | fresh, bound, .bclose :: rest => bound && scriptTailOk fresh false rest

/-- The prescale value a command's script needs in `S.p` (R105). -/
def neededPrescale (p : Params) : Instr → Option Byte
  | .setFrequency freq => some (prescale p freq.toNat)
  | .openDevice _ _ => some (prescale p p.defaultFreq)
  | .closeDevice => none
  | .applyMode1 _ => none
  | .applyMode2 _ => none
  | .setChannel _ _ _ => none

/-- The script is the one of the latched command word, and `S.p` holds the prescale it needs (R400, R403, R105). -/
def State.scriptLatched (s : State) : Bool :=
  match decode s.cmd with
  | .ok i => s.script == scriptOf s.params i && (neededPrescale s.params i).all fun v => s.p == v
  | .error _ => false

/-- R401: the first pre-check that applies, in its order: encoding, binding, arguments. -/
def preCheck (p : Params) (bound : Bool) (i : Instr) : Option Cause :=
  if !i.wellFormed then some .illegalCommand
  else
    match i with
    | .openDevice _ _ => if bound then some .alreadyBound else none
    | .closeDevice => if bound then none else some .notBound
    | .applyMode1 req16 =>
      if !bound then some .notBound else if req1Legal p req16 then none else some .illegalArgument
    | .applyMode2 _ => if bound then none else some .notBound
    | .setFrequency freq => if !bound then some .notBound else if freq = 0 then some .illegalArgument else none
    | .setChannel _ _ _ => if bound then none else some .notBound

/-! ### The invariant -/

/-- What holds while a command executes. That no response is out rests on when `rsp_valid` falls, the model's choice
(log 6). -/
abbrev State.BusyInv (s : State) : Prop :=
  s.scriptLatched = true ∧ s.upc < s.script.length ∧
  scriptTailOk s.wFresh s.bound (s.script.drop s.upc) = true ∧ s.rspValid = false

/-- The machine's invariant: in BUSY, `BusyInv`; and the double's register space is in canonical form. -/
abbrev State.Inv (s : State) : Prop := (s.phase = .busy → s.BusyInv) ∧ s.env.wf = true

/-! ### The double -/

/-- A double that no test disturbs: nothing is made to fail and no other agent writes. -/
abbrev Double.Calm (d : Double) : Prop := d.inject = [] ∧ d.others = []

/-- The register of the double behind the bus, if the double is there. -/
def State.chipReg (s : State) (a : Byte) : Option Byte :=
  match s.env.source with
  | .double d => some (d.reg a)
  | .answers _ => none

end Sys2Proof.Machine
end

