-- ==== Sys2Proof/Certificates/Slice0/Obligations.lean ====
section
/-! DEFINITION. The statements for the provers; OBLIGATIONS.json lists them. -/

open Sys2Proof Sys2Proof.Machine

/-! ### Encoding -/

/-- Every well-formed instruction is what its word decodes to (30_encoding R302, R303, R311). -/
def Obligations.DecodeOfEncodeIsTheInstruction : Prop :=
  ∀ i : Instr, i.WellFormed → decode (encode i) = .ok i

/-- A word that decodes is the word of the well-formed instruction it decodes to (30_encoding R302, R303). -/
def Obligations.EncodeOfDecodeIsTheWord : Prop :=
  ∀ (w : CmdWord) (i : Instr), decode w = .ok i → encode i = w ∧ i.WellFormed

/-- Words of 95_test_vectors V-E, one or more of each command, and reserved ones. -/
def Obligations.SampleWordsDecode : Prop :=
  decode 0x0000000100004000 = .ok (.openDevice 1 0x40) ∧
  decode 0x0000000000000001 = .ok .closeDevice ∧
  decode 0x0000000005020002 = .ok (.applyMode1 0x0502) ∧
  decode 0x00000000003F0003 = .ok (.applyMode2 0x3F) ∧
  decode 0x0000003200000004 = .ok (.setFrequency 50) ∧
  decode 0x000000000FFF0F05 = .ok (.setChannel 15 4095 0) ∧
  decode 0x0000000000000006 = .error .reservedOpcode ∧
  decode 0x0000000000400003 = .error .reservedBit

/-- R303: a word selects a row of the opcode map if and only if it decodes to an instruction of that row (so no word
selects two rows), and a word that selects none is illegal. -/
def Obligations.WordSelectsRowIffItDecodesToIt : Prop :=
  ∀ w : CmdWord,
    (∀ r ∈ opcodeTable, (w &&& r.mask = r.matchBits) ↔ ∃ i, decode w = .ok i ∧ i.row = r) ∧
    ((∀ r ∈ opcodeTable, w &&& r.mask ≠ r.matchBits) → ∃ e, decode w = .error e)

/-- R304: an illegal word (op 6 or 7, or a reserved bit of R302 set) is accepted and fails at once with
ILLEGAL_COMMAND; no bus transaction, and the binding unchanged. -/
def Obligations.IllegalWordFailsIllegalCommand : Prop :=
  ∀ (s : State) (word : CmdWord) (rest : List CmdWord),
    s.rst = false → s.phase = .idle → s.cmds = word :: rest → illegalWord word = true →
    ∃ t, step s = .next t ∧ t.RespondsFail .illegalCommand ∧ t.env = s.env ∧ SameBinding s t ∧ t.cmds = rest

/-! ### The step -/

/-- Acceptance (R300, R400): when the word at the head of the command port decodes to `i`, the step is `exec i` of the
state with the word latched and taken from the port, and the response port free (log 6). -/
def Obligations.StepRunsDecodedCommand : Prop :=
  ∀ (s : State) (word : CmdWord) (rest : List CmdWord) (i : Instr),
    s.rst = false → s.phase = .idle → s.cmds = word :: rest → decode word = .ok i →
    step s = exec i { s with cmd := word, cmds := rest, rspValid := false }

/-- R300: no command is accepted while another executes. That no step changes the parameters is not R300's: R100 and R8
make them configuration, and holding them in State unchanged is the model's choice (log 1). -/
def Obligations.NoCommandAcceptedWhileBusy : Prop :=
  ∀ s t : State, step s = .next t →
    t.params = s.params ∧
    (s.rst = false → s.phase = .busy → t.cmds = s.cmds ∧ t.cmd = s.cmd ∧ t.script = s.script)

/-- R402, R219: a step carries out at most one transaction of the block, and only the outstanding one. -/
def Obligations.StepPerformsOnlyTheOutstandingTransaction : Prop :=
  ∀ s t : State, step s = .next t →
    t.env.blockTxns = s.env.blockTxns ∨
    ∃ q r, s.outstanding = some q ∧ s.rst = false ∧ t.env.blockTxns = s.env.blockTxns ++ [(q, r)]

/-- R300, R412, R413: the step that ends an executing command, and no other, puts a response out. That no response is out
while a command executes is the model's choice of when `rsp_valid` falls (log 6), and a part of `Inv`. -/
def Obligations.ExecutingCommandEndsWithOneResponse : Prop :=
  ∀ s t : State, s.Inv → s.rst = false → s.phase = .busy → step s = .next t →
    s.rspValid = false ∧ (t.phase = .idle ↔ t.rspValid = true)

/-! ### Pre-checks -/

/-- R401, R451: encoding, then binding, then arguments; the first that applies decides the cause, and no transaction
is issued. No other operand is checked: every other command is BUSY with its script. The clause on an ill-formed term,
which no word decodes to, is the model's choice (log 20). -/
def Obligations.PreChecksRunInOrder : Prop :=
  (∀ (word : CmdWord) (e : DecodeError) (s : State), decode word = .error e →
    ∃ t, acceptWord word s = .next t ∧ t.env = s.env ∧ t.RespondsFail .illegalCommand) ∧
  ∀ (i : Instr) (s : State), ∃ t, exec i s = .next t ∧ t.env = s.env ∧
    (i.wellFormed = false → t.RespondsFail .illegalCommand) ∧
    (∀ path addr7, i = .openDevice path addr7 →
      if s.bound = true then t.RespondsFail .alreadyBound else t.phase = .busy) ∧
    (i.WellFormed → (∀ path addr7, i ≠ .openDevice path addr7) → s.bound = false → t.RespondsFail .notBound) ∧
    (∀ req, i = .applyMode1 req → s.bound = true →
      if req1Legal s.params req = true then t.phase = .busy else t.RespondsFail .illegalArgument) ∧
    (∀ freq, i = .setFrequency freq → s.bound = true →
      if freq = 0 then t.RespondsFail .illegalArgument else t.phase = .busy) ∧
    ((i = .closeDevice ∨ (∃ req, i = .applyMode2 req ∧ i.WellFormed) ∨ ∃ id on off, i = .setChannel id on off) →
      s.bound = true → t.phase = .busy)

/-- R602: a pre-check fault (a response at acceptance of the latched word, log 7) changes only the response registers,
and its cause is one of codes 3 to 6; with R601's code values. -/
def Obligations.PreCheckFaultChangesOnlyTheResponse : Prop :=
  (Status.ok.code = 0 ∧ Status.fail.code = 1 ∧ Cause.none.code = 0 ∧ Cause.transport.code = 1 ∧
    Cause.shortTransfer.code = 2 ∧ Cause.notBound.code = 3 ∧ Cause.alreadyBound.code = 4 ∧
    Cause.illegalCommand.code = 5 ∧ Cause.illegalArgument.code = 6) ∧
  ∀ (i : Instr) (s t : State), s.phase = .idle → s.rspValid = false → exec i s = .next t → t.rspValid = true →
    t.rspStatus = .fail ∧ t.rspCause ∈ preCheckCauses ∧
    t.rspStatus.code = 1 ∧ 3 ≤ t.rspCause.code.toNat ∧ t.rspCause.code.toNat ≤ 6 ∧ SameBinding s t ∧ SameCommandSide s t ∧
    t.phase = s.phase ∧ t.upc = s.upc ∧ t.script = s.script ∧ t.w = s.w ∧ t.wFresh = s.wFresh ∧ t.p = s.p ∧
    t.env = s.env

/-- R400: an accepted command is BUSY at micro-operation 0 of its script, with `S.p` computed if it needs it; no
transaction was issued, and nothing else changed. -/
def Obligations.AcceptedCommandStartsItsScript : Prop :=
  ∀ (i : Instr) (s t : State), s.phase = .idle → exec i s = .next t → t.phase = .busy →
    t.script = scriptOf s.params i ∧ t.upc = 0 ∧ t.env = s.env ∧ SameBinding s t ∧ SameCommandSide s t ∧
    t.w = s.w ∧ t.rspValid = s.rspValid ∧ t.rspStatus = s.rspStatus ∧ t.rspCause = s.rspCause ∧
    t.rspClose = s.rspClose ∧
    (∀ freq, i = .setFrequency freq → t.p = prescale s.params freq.toNat) ∧
    (∀ path addr7, i = .openDevice path addr7 → t.p = prescale s.params s.params.defaultFreq) ∧
    ((∀ freq, i ≠ .setFrequency freq) → (∀ path addr7, i ≠ .openDevice path addr7) → t.p = s.p)

/-- R102: `S.bound` is set by OPEN only, on success of its bind step; cleared only by CLOSE and by block reset; and
while it is 0 every command other than OPEN fails NOT_BOUND with no transaction. -/
def Obligations.BoundSetByOpenAndClearedByCloseOrReset : Prop :=
  (∀ s t : State, s.Inv → step s = .next t → s.bound = false → t.bound = true →
    s.phase = .busy ∧ (∃ path addr7, decode s.cmd = .ok (.openDevice path addr7)) ∧
    ∃ a r e, s.script[s.upc]? = some (.bbind a) ∧ s.env.answer s.params (.busBind s.chan a) = some (r, e) ∧
      r.ok = true) ∧
  (∀ s t : State, s.Inv → step s = .next t → s.bound = true → t.bound = false →
    s.rst = true ∨ (s.phase = .busy ∧ decode s.cmd = .ok .closeDevice)) ∧
  (∀ (i : Instr) (s : State), i.WellFormed → (∀ path addr7, i ≠ .openDevice path addr7) → s.bound = false →
    ∃ t, exec i s = .next t ∧ t.RespondsFail .notBound ∧ t.env = s.env ∧ t.bound = false)

/-- R307: a non-RESTART slot with both bits set is rejected with no transaction; both bits of the RESTART slot mean
"assert RESTART"; a slot with neither bit leaves its flag alone. -/
def Obligations.Mode1RequestLegality : Prop :=
  (∀ (s : State) (req : BitVec 16) (k : Nat), s.bound = true → k < 8 → k ≠ s.params.m1.restart.val →
    req.getLsbD (2 * k) = true → req.getLsbD (2 * k + 1) = true →
    ∃ t, exec (.applyMode1 req) s = .next t ∧ t.RespondsFail .illegalArgument ∧ t.env = s.env) ∧
  (∀ (s : State) (req : BitVec 16), s.bound = true →
    (∀ k < 8, k ≠ s.params.m1.restart.val → ¬ (req.getLsbD (2 * k) = true ∧ req.getLsbD (2 * k + 1) = true)) →
    ∃ t, exec (.applyMode1 req) s = .next t ∧ t.phase = .busy) ∧
  (∀ (p : Params) (w : Byte) (req : BitVec 16),
    req.getLsbD (2 * p.m1.restart.val) = true → req.getLsbD (2 * p.m1.restart.val + 1) = true →
    (m1 p w req).getLsbD p.m1.restart.val = true) ∧
  (∀ (p : Params) (w : Byte) (req : BitVec 16) (k : Nat), k < 8 →
    req.getLsbD (2 * k) = false → req.getLsbD (2 * k + 1) = false → (m1 p w req).getLsbD k = w.getLsbD k)

/-! ### Micro-operations -/

/-- R404 to R411: the request each micro-operation issues, while it is the outstanding one. -/
def Obligations.EachMicroOpIssuesItsRequest : Prop :=
  ∀ s : State, s.phase = .busy →
    (∀ a, s.script[s.upc]? = some (.ptr a) → s.outstanding = some (.busWrite s.chan [a])) ∧
    (∀ a v, s.script[s.upc]? = some (.wk a (.const v)) → s.outstanding = some (.busWrite s.chan [a, v])) ∧
    (∀ a, s.script[s.upc]? = some (.wk a .prescale) → s.outstanding = some (.busWrite s.chan [a, s.p])) ∧
    (s.script[s.upc]? = some .rd → s.outstanding = some (.busRead s.chan 1)) ∧
    (∀ a req, s.script[s.upc]? = some (.wb a (.m1 req)) →
      s.outstanding = some (.busWrite s.chan [a, m1 s.params s.w req])) ∧
    (∀ a req, s.script[s.upc]? = some (.wb a (.m2 req)) →
      s.outstanding = some (.busWrite s.chan [a, m2 s.params s.w req])) ∧
    (∀ a b0 b1 b2 b3, s.script[s.upc]? = some (.w5 a b0 b1 b2 b3) →
      s.outstanding = some (.busWrite s.chan [a, b0, b1, b2, b3])) ∧
    (∀ path, s.script[s.upc]? = some (.bopen path) → s.outstanding = some (.busOpen path)) ∧
    (∀ addr7, s.script[s.upc]? = some (.bbind addr7) → s.outstanding = some (.busBind s.chan addr7)) ∧
    (s.script[s.upc]? = some .bclose → s.outstanding = some (.busClose s.chan))

/-- R206: a BusWrite of n bytes succeeds exactly on the count n; any other count fails SHORT_TRANSFER. A write has no
effect on block state (R404, R405, R407, R408) but `upc`, and the response registers when it ends the command. -/
def Obligations.BusWriteSucceedsExactlyOnFullCount : Prop :=
  ∀ (s : State) (op : MicroOp) (chan : Token) (bytes : List Byte) (r : BusResponse) (e : Env),
    s.rst = false → s.phase = .busy → s.script[s.upc]? = some op → (op.readsW = true → s.wFresh = true) →
    op.request s = .busWrite chan bytes → s.env.answer s.params (.busWrite chan bytes) = some (r, e) →
    ∃ t, step s = .next t ∧ t.env = e ∧ SameBinding s t ∧ SameCommandSide s t ∧ t.w = s.w ∧ t.p = s.p ∧
      t.script = s.script ∧
      (if r.count = bytes.length then
        t.upc = s.upc + 1 ∧ (if s.upc + 1 = s.script.length then t.RespondsOk
          else t.phase = .busy ∧ SameResponse s t)
       else t.upc = s.upc ∧ t.RespondsFail .shortTransfer)

/-- R207, R406: a BusRead of 1 byte succeeds exactly on the count 1 and writes `S.w`; any other count fails
SHORT_TRANSFER, and the byte is discarded. -/
def Obligations.BusReadSucceedsExactlyOnCountOne : Prop :=
  ∀ (s : State) (r : BusResponse) (e : Env),
    s.rst = false → s.phase = .busy → s.script[s.upc]? = some .rd →
    s.env.answer s.params (.busRead s.chan 1) = some (r, e) →
    ∃ t, step s = .next t ∧ t.env = e ∧ SameBinding s t ∧ SameCommandSide s t ∧ t.p = s.p ∧ t.script = s.script ∧
      (if r.count = 1 then
        t.w = r.byte ∧ t.upc = s.upc + 1 ∧ (if s.upc + 1 = s.script.length then t.RespondsOk
          else t.phase = .busy ∧ SameResponse s t)
       else t.w = s.w ∧ t.upc = s.upc ∧ t.RespondsFail .shortTransfer)

/-- R208, R409, R410: BusOpen and BusBind with ok = 0 fail TRANSPORT at once; with ok = 1 the token is latched, or
the block is bound, and a command that goes on keeps its response registers. After a failed BusOpen `S.chan` is left open
(93 U12, log 9); after a failed BusBind it keeps the token, the model's choice (log 26). -/
def Obligations.FailedOpenOrBindIsTransport : Prop :=
  (∀ (s : State) (path : Token) (r : BusResponse) (e : Env),
    s.rst = false → s.phase = .busy → s.script[s.upc]? = some (.bopen path) →
    s.env.answer s.params (.busOpen path) = some (r, e) →
    ∃ t, step s = .next t ∧ t.env = e ∧ t.bound = s.bound ∧ SameCommandSide s t ∧ t.w = s.w ∧ t.p = s.p ∧
      t.script = s.script ∧
      (if r.ok = true then
        t.chan = r.chan ∧ t.upc = s.upc + 1 ∧ (if s.upc + 1 = s.script.length then t.RespondsOk
          else t.phase = .busy ∧ SameResponse s t)
       else t.upc = s.upc ∧ t.RespondsFail .transport)) ∧
  (∀ (s : State) (addr7 : BitVec 7) (r : BusResponse) (e : Env),
    s.rst = false → s.phase = .busy → s.script[s.upc]? = some (.bbind addr7) →
    s.env.answer s.params (.busBind s.chan addr7) = some (r, e) →
    ∃ t, step s = .next t ∧ t.env = e ∧ t.chan = s.chan ∧ SameCommandSide s t ∧ t.w = s.w ∧ t.p = s.p ∧
      t.script = s.script ∧
      (if r.ok = true then
        t.bound = true ∧ t.upc = s.upc + 1 ∧ (if s.upc + 1 = s.script.length then t.RespondsOk
          else t.phase = .busy ∧ SameResponse s t)
       else t.bound = s.bound ∧ t.upc = s.upc ∧ t.RespondsFail .transport))

/-- R413: a failing micro-operation ends the command with its cause; exactly its own transaction was added, none is
outstanding any more, and nothing is undone. (`S.chan` after a failed BusOpen is left open, 93 U12 and log 9; that it
keeps the token after a failed BusBind is the model's choice, log 26.) -/
def Obligations.FailingMicroOpAbortsTheCommand : Prop :=
  ∀ (s : State) (op : MicroOp) (r : BusResponse) (e : Env),
    s.rst = false → s.phase = .busy → s.script[s.upc]? = some op → (op.readsW = true → s.wFresh = true) →
    s.env.answer s.params (op.request s) = some (r, e) → op.succeeds r = false →
    ∃ t, step s = .next t ∧ t.RespondsFail op.failCause ∧ t.env = e ∧
      t.env.blockTxns = s.env.blockTxns ++ [(op.request s, r)] ∧ t.outstanding = none ∧
      t.bound = s.bound ∧ SameCommandSide s t ∧ t.script = s.script ∧ t.upc = s.upc ∧ t.w = s.w ∧ t.p = s.p ∧
      ((∀ path, op ≠ .bopen path) → t.chan = s.chan)

/-- R492: after a failed OPEN, `S.bound` is 0 if step 1 or 2 failed, with no BusClose issued, and 1 if a later step
failed. (`upc` counts from 0.) -/
def Obligations.BindingAfterFailedOpen : Prop :=
  ∀ (s t : State) (path : Token) (addr7 : BitVec 7),
    s.Inv → s.rst = false → s.phase = .busy → decode s.cmd = .ok (.openDevice path addr7) →
    step s = .next t → t.phase = .idle → t.rspStatus = .fail →
    t.outstanding = none ∧
    (s.upc ≤ 1 → t.bound = false ∧ t.rspCause = .transport) ∧
    (2 ≤ s.upc → t.bound = true ∧ t.rspCause = .shortTransfer)

/-! ### Whole commands -/

/-- R471: SET_CHANNEL issues exactly one transaction, the five bytes, and completes on the count 5; on any other count
it fails. No id and no tick value is checked or masked. -/
def Obligations.SetChannelWritesItsFiveBytes : Prop :=
  ∀ (s : State) (id : BitVec 8) (on off : BitVec 16) (q : BusRequest) (r : BusResponse) (e : Env),
    s.rst = false → s.bound = true →
    q = .busWrite s.chan [BitVec.ofNat 8 (s.params.regLed0OnL.toNat + 4 * id.toNat),
      (on &&& 0xFF#16).setWidth 8, (on >>> 8).setWidth 8, (off &&& 0xFF#16).setWidth 8, (off >>> 8).setWidth 8] →
    s.env.answer s.params q = some (r, e) →
    ∃ t u, exec (.setChannel id on off) s = .next t ∧ step t = .next u ∧
      (if r.count = 5 then u.RespondsOk else u.RespondsFail .shortTransfer) ∧ u.env = e ∧
      u.env.blockTxns = s.env.blockTxns ++ [(q, r)] ∧
      SameBinding s u ∧ SameCommandSide s u ∧ u.w = s.w ∧ u.p = s.p

/-- R421, R431: an empty APPLY_MODE1 or APPLY_MODE2 issues one write, `[REG]` or `[REG, 0x00]` by
EMPTY_REQUEST_FORM, and no read; it fails if the count is not 1 (or 2). -/
def Obligations.EmptyModeRequestIssuesOneWrite : Prop :=
  ∀ (s : State) (i : Instr) (a : Byte) (r : BusResponse) (e : Env),
    (i = .applyMode1 0 ∧ a = s.params.regMode1) ∨ (i = .applyMode2 0 ∧ a = s.params.regMode2) →
    s.rst = false → s.bound = true →
    s.env.answer s.params (.busWrite s.chan (emptyBytes s.params a)) = some (r, e) →
    ∃ t u, exec i s = .next t ∧ step t = .next u ∧
      (if r.count = (match s.params.emptyForm with | .pointerOnly => 1 | .writeZero => 2) then u.RespondsOk
       else u.RespondsFail .shortTransfer) ∧ u.env = e ∧
      u.env.blockTxns = s.env.blockTxns ++ [(.busWrite s.chan (emptyBytes s.params a), r)] ∧
      SameBinding s u ∧ SameCommandSide s u ∧ u.w = s.w ∧ u.p = s.p

/-- R423: a non-empty legal APPLY_MODE1 is pointer write, read, write-back of `m1` of the byte read. -/
def Obligations.ApplyMode1ReadsModifiesWrites : Prop :=
  ∀ (s : State) (req : BitVec 16) (r1 r2 r3 : BusResponse) (e : Env),
    s.rst = false → s.bound = true → req ≠ 0 → req1Legal s.params req = true →
    s.env.answerAll s.params (mode1Requests s.params s.chan req r2.byte) = some ([r1, r2, r3], e) →
    r1.count = 1 → r2.count = 1 → r3.count = 2 →
    ∃ t u, exec (.applyMode1 req) s = .next t ∧ runSteps 3 t = .next u ∧ u.RespondsOk ∧ u.env = e ∧
      u.env.blockTxns = s.env.blockTxns ++ (mode1Requests s.params s.chan req r2.byte).zip [r1, r2, r3] ∧
      SameBinding s u ∧ SameCommandSide s u ∧ u.w = r2.byte ∧ u.p = s.p

/-- R435: a non-empty APPLY_MODE2 is pointer write, read, write-back of `m2` of the byte read. -/
def Obligations.ApplyMode2ReadsModifiesWrites : Prop :=
  ∀ (s : State) (req : BitVec 8) (r1 r2 r3 : BusResponse) (e : Env),
    s.rst = false → s.bound = true → req ≠ 0 → (Instr.applyMode2 req).WellFormed →
    s.env.answerAll s.params (mode2Requests s.params s.chan req r2.byte) = some ([r1, r2, r3], e) →
    r1.count = 1 → r2.count = 1 → r3.count = 2 →
    ∃ t u, exec (.applyMode2 req) s = .next t ∧ runSteps 3 t = .next u ∧ u.RespondsOk ∧ u.env = e ∧
      u.env.blockTxns = s.env.blockTxns ++ (mode2Requests s.params s.chan req r2.byte).zip [r1, r2, r3] ∧
      SameBinding s u ∧ SameCommandSide s u ∧ u.w = r2.byte ∧ u.p = s.p

/-- R454: SET_FREQUENCY's ten transactions, in this order, with the prescale computed at acceptance. -/
def Obligations.SetFrequencyRunsItsTenTransactions : Prop :=
  ∀ (s : State) (freq : BitVec 32) (qs : List BusRequest) (r1 r2 r3 r4 r5 r6 r7 r8 r9 r10 : BusResponse) (e : Env),
    s.rst = false → s.bound = true → freq ≠ 0 →
    qs = frequencyRequests s.params s.chan (prescale s.params freq.toNat) r2.byte r6.byte r9.byte →
    s.env.answerAll s.params qs = some ([r1, r2, r3, r4, r5, r6, r7, r8, r9, r10], e) →
    [r1.count, r2.count, r3.count, r4.count, r5.count, r6.count, r7.count, r8.count, r9.count, r10.count] =
      [1, 1, 2, 2, 1, 1, 2, 1, 1, 2] →
    ∃ t u, exec (.setFrequency freq) s = .next t ∧ runSteps 10 t = .next u ∧ u.RespondsOk ∧ u.env = e ∧
      u.env.blockTxns = s.env.blockTxns ++ qs.zip [r1, r2, r3, r4, r5, r6, r7, r8, r9, r10] ∧
      SameBinding s u ∧ SameCommandSide s u ∧ u.w = r9.byte ∧ u.p = prescale s.params freq.toNat

/-- R491: OPEN's seventeen transactions, in this order: open, bind, two empty requests, MODE2 totem-pole, and
SET_FREQUENCY's ten with prescale(DEFAULT_FREQ). -/
def Obligations.OpenRunsItsSeventeenTransactions : Prop :=
  ∀ (s : State) (path : Token) (addr7 : BitVec 7) (qs : List BusRequest)
    (r1 r2 r3 r4 r5 r6 r7 r8 r9 r10 r11 r12 r13 r14 r15 r16 r17 : BusResponse) (e : Env),
    s.rst = false → s.bound = false →
    qs = [.busOpen path, .busBind r1.chan addr7,
        .busWrite r1.chan (emptyBytes s.params s.params.regMode1),
        .busWrite r1.chan (emptyBytes s.params s.params.regMode2)] ++
      mode2Requests s.params r1.chan 0x01 r6.byte ++
      frequencyRequests s.params r1.chan (prescale s.params s.params.defaultFreq) r9.byte r13.byte r16.byte →
    s.env.answerAll s.params qs =
      some ([r1, r2, r3, r4, r5, r6, r7, r8, r9, r10, r11, r12, r13, r14, r15, r16, r17], e) →
    r1.ok = true → r2.ok = true →
    r3.count = (emptyBytes s.params s.params.regMode1).length →
    r4.count = (emptyBytes s.params s.params.regMode2).length →
    [r5.count, r6.count, r7.count] = [1, 1, 2] →
    [r8.count, r9.count, r10.count, r11.count, r12.count, r13.count, r14.count, r15.count, r16.count, r17.count] =
      [1, 1, 2, 2, 1, 1, 2, 1, 1, 2] →
    ∃ t u, exec (.openDevice path addr7) s = .next t ∧ runSteps 17 t = .next u ∧ u.RespondsOk ∧ u.env = e ∧
      u.env.blockTxns = s.env.blockTxns ++
        qs.zip [r1, r2, r3, r4, r5, r6, r7, r8, r9, r10, r11, r12, r13, r14, r15, r16, r17] ∧
      u.bound = true ∧ u.chan = r1.chan ∧ SameCommandSide s u ∧ u.w = r16.byte ∧
      u.p = prescale s.params s.params.defaultFreq

/-- R494: CLOSE has one word; unbound it fails NOT_BOUND with no transaction; bound it issues one BusClose, passes its
status through unchanged, whatever it is, and unbinds. That `S.chan` then keeps its token is the model's choice (93 U12,
log 26). -/
def Obligations.ClosePassesStatusThroughAndUnbinds : Prop :=
  (∀ w : CmdWord, decode w = .ok .closeDevice ↔ w = 0x0000000000000001) ∧
  (∀ s : State, s.bound = false →
    ∃ t, exec .closeDevice s = .next t ∧ t.RespondsFail .notBound ∧ t.env = s.env ∧ t.bound = false) ∧
  ∀ (s : State) (r : BusResponse) (e : Env),
    s.rst = false → s.bound = true → s.env.answer s.params (.busClose s.chan) = some (r, e) →
    ∃ t u, exec .closeDevice s = .next t ∧ step t = .next u ∧ u.RespondsOk ∧ u.rspClose = r.status ∧
      u.bound = false ∧ u.outstanding = none ∧ u.env = e ∧
      u.env.blockTxns = s.env.blockTxns ++ [(.busClose s.chan, r)] ∧
      u.chan = s.chan ∧ SameCommandSide s u ∧ u.w = s.w ∧ u.p = s.p

/-- Every executing command that the bus goes on answering ends: with one response, after at most as many
transactions as its script has left, and after all of them if the response is OK (40_sequencer R412, R413, R417). That
no response is out before the end is the model's choice of when `rsp_valid` falls (log 6). -/
def Obligations.AnsweredCommandEnds : Prop :=
  ∀ s : State, s.Inv → s.rst = false → s.phase = .busy →
    ((∃ d, s.env.source = .double d) ∨
      ∃ rs, s.env.source = .answers rs ∧ s.script.length - s.upc ≤ rs.length) →
    ∃ n t, 1 ≤ n ∧ n ≤ s.script.length - s.upc ∧ runSteps n s = .next t ∧
      t.phase = .idle ∧ t.rspValid = true ∧ t.env.blockTxns.length = s.env.blockTxns.length + n ∧
      (t.rspStatus = .ok → n = s.script.length - s.upc) ∧
      ∀ m < n, ∃ u, runSteps m s = .next u ∧ u.phase = .busy ∧ u.rspValid = false

/-- R605, R210: a bus that never answers is not a failure; the block stays BUSY for ever. That such a bus is the empty
list of answers, and that a wait is a step which leaves the whole state as it is, are the model's choice (log 12). -/
def Obligations.SilentBusKeepsTheBlockBusy : Prop :=
  ∀ (s : State) (n : Nat), s.Inv → s.rst = false → s.phase = .busy → s.env.source = .answers [] →
    runSteps n s = .next s

/-! ### Invariants and the block's registers -/

/-- The invariant holds after reset. -/
def Obligations.ResetMeetsTheInvariant : Prop := State.reset.Inv

/-- Every step keeps the invariant: in BUSY the script is the latched command's, `upc` lies in it, no micro-operation
left reads `S.w` unwritten or reaches the chip unbound, and no response is out; the double's registers are in
canonical form. That no response is out in BUSY is the model's choice of when `rsp_valid` falls (log 6). -/
def Obligations.EveryStepKeepsTheInvariant : Prop :=
  ∀ s t : State, s.Inv → step s = .next t → t.Inv

/-- The machine never stops: from a state with the invariant every step answers a next state, whatever the bus does
and whatever the command port presents (10_state R104, 30_encoding R304, 60_exceptions R600). -/
def Obligations.NoStepStopsUnderTheInvariant : Prop :=
  ∀ s : State, s.Inv → ∃ t, step s = .next t

/-- R104: `S.w` is written only by RD, no state with the invariant reads it unwritten, and a machine that found it
read unwritten faults. -/
def Obligations.WorkingByteWrittenByReadOnly : Prop :=
  (∀ s t : State, s.rst = false → step s = .next t → t.w ≠ s.w →
    s.phase = .busy ∧ s.script[s.upc]? = some .rd) ∧
  (∀ s : State, s.Inv → s.rst = false → s.phase = .busy → ∀ a f, s.script[s.upc]? = some (.wb a f) →
    s.wFresh = true) ∧
  (∀ s : State, s.rst = false → s.phase = .busy → s.wFresh = false →
    ∀ a f, s.script[s.upc]? = some (.wb a f) → step s = .fault .workingByteUnwritten)

/-- R103: `S.chan` changes only at a BusOpen micro-operation, and on its success becomes the token the bus returned.
(That it also keeps its token while unbound is the model's choice, log 26.) -/
def Obligations.ChanWrittenOnlyByBusOpen : Prop :=
  ∀ s t : State, s.rst = false → step s = .next t → t.chan ≠ s.chan →
    s.phase = .busy ∧ ∃ path r e, s.script[s.upc]? = some (.bopen path) ∧
      s.env.answer s.params (.busOpen path) = some (r, e) ∧ (r.ok = true → t.chan = r.chan)

/-- R105: `S.p` is written only at the acceptance of SET_FREQUENCY or OPEN, and holds that command's prescale while
it executes. -/
def Obligations.PrescaleWrittenAtAcceptanceOnly : Prop :=
  (∀ s t : State, s.rst = false → step s = .next t → t.p ≠ s.p →
    s.phase = .idle ∧ t.phase = .busy ∧ t.env = s.env ∧
    ((∃ freq, decode t.cmd = .ok (.setFrequency freq)) ∨ ∃ path addr7, decode t.cmd = .ok (.openDevice path addr7))) ∧
  (∀ (s : State) (freq : BitVec 32), s.Inv → s.phase = .busy → decode s.cmd = .ok (.setFrequency freq) →
    s.p = prescale s.params freq.toNat) ∧
  (∀ (s : State) (path : Token) (addr7 : BitVec 7), s.Inv → s.phase = .busy →
    decode s.cmd = .ok (.openDevice path addr7) → s.p = prescale s.params s.params.defaultFreq)

/-- R415: in BUSY `upc` advances by exactly 1 on a successful micro-operation and stays otherwise; it never exceeds
17. -/
def Obligations.UpcAdvancesByOneAndStaysWithinSeventeen : Prop :=
  ∀ s t : State, s.Inv → s.rst = false → s.phase = .busy → step s = .next t →
    t.upc ≤ 17 ∧
    ∃ op, s.script[s.upc]? = some op ∧
      t.upc = (match s.env.answer s.params (op.request s) with
        | none => s.upc
        | some (r, _) => if op.succeeds r = true then s.upc + 1 else s.upc)

/-- R416, R221: the block is deterministic given the bus's responses. Two machines whose blocks agree and whose buses
give the outstanding request the same answer have blocks that agree after the step, whatever else differs behind the
bus. -/
def Obligations.BlockSeesTheBusOnlyThroughItsResponse : Prop :=
  ∀ (s t : State) (q : BusRequest) (r : BusResponse) (e1 e2 f1 f2 : Env),
    s.rst = false → s.outstanding = some q →
    e1.answer s.params q = some (r, f1) → e2.answer s.params q = some (r, f2) →
    step (s.withEnv e1) = .next t →
    t.env = f1 ∧ step (s.withEnv e2) = .next (t.withEnv f2)

/-- R700, R701: a block reset leaves IDLE, unbound, no response, nothing outstanding; it issues no transaction and
does not touch the chip; a late response to the abandoned request is ignored (log 14). -/
def Obligations.BlockResetUnbindsWithoutTransaction : Prop :=
  ∀ s : State, s.rst = true →
    ∃ t, step s = .next t ∧ t.phase = .idle ∧ t.bound = false ∧ t.rspValid = false ∧ t.outstanding = none ∧
      t.rst = false ∧ t.cmds = s.cmds ∧ t.params = s.params ∧ t.env.log = s.env.log ∧
      (∀ d, s.env.source = .double d → t.env.source = .double d) ∧
      (∀ r rs, s.env.source = .answers (r :: rs) →
        t.env.source = .answers (if s.phase = .busy then rs else r :: rs))

/-- R700: what block reset leaves of the values the spec gives, and that the block is ready for a command: in the reset
state, and after a reset of any state. -/
def Obligations.ResetStateIsIdleAndUnbound : Prop :=
  (State.reset.phase = .idle ∧ State.reset.bound = false ∧ State.reset.rspValid = false ∧
    State.reset.outstanding = none ∧ State.reset.cmdReady = true) ∧
  ∀ s : State, s.rst = true → ∃ t, step s = .next t ∧ t.phase = .idle ∧ t.bound = false ∧ t.rspValid = false ∧
    t.outstanding = none ∧ t.cmdReady = true

/-! ### Scripts -/

/-- R201: the register addresses a command can produce are MODE1, MODE2, PRE_SCALE and `chan_addr(id)` of its own
channel id. -/
def Obligations.CommandsReachOnlyFourKindsOfAddress : Prop :=
  ∀ (p : Params) (i : Instr) (op : MicroOp) (a : Byte), op ∈ scriptOf p i → op.address = some a →
    a = p.regMode1 ∨ a = p.regMode2 ∨ a = p.regPreScale ∨ ∃ id, channelOf i = some id ∧ a = chanAddr p id

/-- R214: writes of 1, 2 or 5 bytes and reads of 1 byte; no other width is issued. -/
def Obligations.OnlyLegalWidthsAreIssued : Prop :=
  ∀ (s : State) (q : BusRequest), s.outstanding = some q → q.widthOk = true

/-- R403: in every script each WB is immediately preceded by an RD, and that by a PTR to the same register. -/
def Obligations.WriteBackFollowsPointerAndRead : Prop :=
  ∀ (p : Params) (i : Instr) (j : Nat) (a : Byte) (f : WorkFn), (scriptOf p i)[j]? = some (.wb a f) →
    ∃ k, j = k + 2 ∧ (scriptOf p i)[k]? = some (.ptr a) ∧ (scriptOf p i)[k + 1]? = some .rd

/-! ### Compute functions -/

/-- R422: bit k of `m1`: RESTART is set by either of its request bits; another bit is set by its ON bit, else cleared
by its OFF bit; every other bit keeps the value read. -/
def Obligations.Mode1ComputesEachBit : Prop :=
  ∀ (p : Params) (w : Byte) (req : BitVec 16) (k : Nat), k < 8 →
    (m1 p w req).getLsbD k =
      (if k = p.m1.restart.val then req.getLsbD (2 * k) || req.getLsbD (2 * k + 1) || w.getLsbD k
       else if req.getLsbD (2 * k) then true
       else if req.getLsbD (2 * k + 1) then false
       else w.getLsbD k)

/-- R424, the round-trip law: `(R & ~affectedBits) | (C's requested bits)`. -/
def Obligations.Mode1RoundTripLaw : Prop :=
  ∀ (p : Params) (w : Byte) (req : BitVec 16),
    m1 p w req = (w &&& ~~~(m1Set p req ||| m1Clr p req)) ||| m1Set p req

/-- R454, R456: SET_FREQUENCY's setup request asserts SLEEP, clears ALLCALL and sets AI; its wake request clears
SLEEP; both leave every other MODE1 bit as read. -/
def Obligations.SetupSleepsAndWakeWakes : Prop :=
  ∀ (p : Params) (w : Byte) (k : Fin 8), p.m1.positions.Nodup →
    (m1 p w (req1SleepSetup p)).getLsbD k.val =
      (if k = p.m1.sleep ∨ k = p.m1.ai then true else if k = p.m1.allcall then false else w.getLsbD k.val) ∧
    (m1 p w (req1Wake p)).getLsbD k.val = (if k = p.m1.sleep then false else w.getLsbD k.val)

/-- R432, R434, R113: the driver field after a driver request, and what every MODE2 request leaves alone: the bits
outside the masks, the OCH bit, and an INVERT bit that is set. -/
def Obligations.Mode2DriverFieldAndPreservedBits : Prop :=
  ∀ (p : Params) (w : Byte) (req : BitVec 8), p.wf →
    (m2 p w req) &&& p.m2DrvField =
      (if req.extractLsb' 0 2 = 0b00#2 then w &&& p.m2DrvField
       else if req.extractLsb' 0 2 = 0b01#2 then 0
       else if req.extractLsb' 0 2 = 0b10#2 then p.m2DrvOd
       else p.m2DrvHz) ∧
    (m2 p w req) &&& p.m2Och = w &&& p.m2Och ∧
    (m2 p w req) &&& p.m2Invrt = (if req.getLsbD 4 then p.m2Invrt else w &&& p.m2Invrt) ∧
    (m2 p w req) &&& ~~~(p.m2DrvField ||| p.m2OeBit ||| p.m2Invrt) =
      w &&& ~~~(p.m2DrvField ||| p.m2OeBit ||| p.m2Invrt)

/-- R433: under SOURCE the high-Z request clears the output-enable bit and the totem-pole request sets it; under
CORRECTED the other way round; the totem-pole test comes later and wins. -/
def Obligations.Mode2OutputEnablePolarity : Prop :=
  Params.default.oePolarity = .source ∧ ∀ (p : Params) (w : Byte) (req : BitVec 8), p.wf →
    (m2 p w req) &&& p.m2OeBit =
      (if req.getLsbD 3 then (if p.oePolarity = .source then p.m2OeBit else 0)
       else if req.getLsbD 2 then (if p.oePolarity = .source then 0 else p.m2OeBit)
       else w &&& p.m2OeBit)

/-- R452: for freq ≥ 1, the prescale is `floor(OSC_HZ / (PERIOD_TICKS * freq)) - 1` modulo 256, so 255 where the
floor is 0. -/
def Obligations.PrescaleIsTheFloorFormula : Prop :=
  Params.default.oscHz / Params.default.periodTicks = 6103 ∧ ∀ (p : Params) (freq : Nat), 1 ≤ freq → 1 ≤ p.periodTicks →
    (prescale p freq).toNat = (p.oscHz / (p.periodTicks * freq) + 255) % 256

/-- R453, with the defaults: `q - 1` lies in [3,255] exactly for freq in [24,1525], and there the byte written is
`q - 1`. -/
def Obligations.PrescaleRangeIsTwentyFourTo1525 : Prop :=
  ∀ freq : Nat, 1 ≤ freq →
    ((3 ≤ (prescaleQuotient Params.default freq : Int) - 1 ∧ (prescaleQuotient Params.default freq : Int) - 1 ≤ 255)
      ↔ 24 ≤ freq ∧ freq ≤ 1525) ∧
    (24 ≤ freq → freq ≤ 1525 →
      (prescale Params.default freq).toNat + 1 = prescaleQuotient Params.default freq)

/-- R203: the channel address is `REG_LED0_ON_L + 4*id` modulo 256; ids 64 apart alias (R204); with the default base
the ids 0 to 15 give 6 to 66 in steps of 4, each channel's four addresses name registers, and ids 16 to 60 name
none. -/
def Obligations.ChannelAddressIsBasePlusFourId : Prop :=
  (∀ (p : Params) (id : BitVec 8), (chanAddr p id).toNat = (p.regLed0OnL.toNat + 4 * id.toNat) % 256) ∧
  (∀ (p : Params) (id : BitVec 8), chanAddr p (id + 64) = chanAddr p id) ∧
  (∀ (id : BitVec 8), id.toNat ≤ 15 →
    (chanAddr Params.default id).toNat = 6 + 4 * id.toNat ∧
    ∀ k < 4, namesRegister (chanAddr Params.default id + BitVec.ofNat 8 k) = true) ∧
  (∀ (id : BitVec 8), 16 ≤ id.toNat → id.toNat ≤ 60 → namesRegister (chanAddr Params.default id) = false)

/-- R211: the four data bytes of a channel write are the 32-bit value `{off, on}` in little-endian order. -/
def Obligations.ChannelBytesAreLittleEndian : Prop :=
  ∀ on off : BitVec 16, [lowByte on, highByte on, lowByte off, highByte off] = leBytes4 (off ++ on)

/-! ### The reference double (20_memory R230 to R235: decision D26 of the spec) -/

/-- R213 on the double: a pointer write followed by a read returns the register's value, and changes none. -/
def Obligations.PointerIdiomReadsTheRegister : Prop :=
  ∀ (p : Params) (d : Double) (j k : Nat) (c : Token) (a : Byte), j ∉ d.inject → k ∉ d.inject →
    (((d.respond p j (.busWrite c [a])).2.respond p k (.busRead c 1)).1.count = 1 ∧
     ((d.respond p j (.busWrite c [a])).2.respond p k (.busRead c 1)).1.byte = d.reg a ∧
     ((d.respond p j (.busWrite c [a])).2.respond p k (.busRead c 1)).2.regs = d.regs)

/-- R232 on the double, for four data bytes away from MODE1 and PRE_SCALE: with AI set they land at four consecutive
addresses modulo 256, with AI clear the last one stays at the one address; every other register is unchanged. -/
def Obligations.FourByteWriteFollowsAutoIncrement : Prop :=
  ∀ (p : Params) (d : Double) (a b0 b1 b2 b3 : Byte), Memory.wf d.regs = true →
    (∀ k < 4, a + BitVec.ofNat 8 k ≠ p.regMode1 ∧ a + BitVec.ofNat 8 k ≠ p.regPreScale) →
    (d.autoIncrement p = true →
      (d.write p [a, b0, b1, b2, b3]).ptr = a + 3 ∧
      (d.write p [a, b0, b1, b2, b3]).reg a = b0 ∧ (d.write p [a, b0, b1, b2, b3]).reg (a + 1) = b1 ∧
      (d.write p [a, b0, b1, b2, b3]).reg (a + 2) = b2 ∧ (d.write p [a, b0, b1, b2, b3]).reg (a + 3) = b3 ∧
      ∀ x, x ≠ a → x ≠ a + 1 → x ≠ a + 2 → x ≠ a + 3 → (d.write p [a, b0, b1, b2, b3]).reg x = d.reg x) ∧
    (d.autoIncrement p = false →
      (d.write p [a, b0, b1, b2, b3]).ptr = a ∧ (d.write p [a, b0, b1, b2, b3]).reg a = b3 ∧
      ∀ x, x ≠ a → (d.write p [a, b0, b1, b2, b3]).reg x = d.reg x)

/-- R423, R435, R421, R431, R494 on an undisturbed double, the frame over the chip's registers: a non-empty APPLY_MODE1
stores `m1` of the register to MODE1 (less RESTART, which the double clears) and nothing else; a non-empty APPLY_MODE2
stores `m2` to MODE2 and nothing else; an empty request stores nothing, or 0x00 to its own register under WRITE_ZERO;
CLOSE stores nothing. -/
def Obligations.ModeCommandsAndCloseStoreOnlyTheirRegister : Prop :=
  ∀ (s : State) (d : Double),
    s.rst = false → s.bound = true → s.params.wf → s.env.source = .double d → d.Calm → Memory.wf d.regs = true →
    (∀ req, req ≠ 0 → req1Legal s.params req = true →
      ∃ t u, exec (.applyMode1 req) s = .next t ∧ runSteps 3 t = .next u ∧ u.RespondsOk ∧
        u.chipReg s.params.regMode1 =
          some (m1 s.params (d.reg s.params.regMode1) req &&& ~~~bit s.params.m1.restart.val) ∧
        ∀ x, x ≠ s.params.regMode1 → u.chipReg x = s.chipReg x) ∧
    (∀ req, req ≠ 0 → (Instr.applyMode2 req).WellFormed →
      ∃ t u, exec (.applyMode2 req) s = .next t ∧ runSteps 3 t = .next u ∧ u.RespondsOk ∧
        u.chipReg s.params.regMode2 = some (m2 s.params (d.reg s.params.regMode2) req) ∧
        ∀ x, x ≠ s.params.regMode2 → u.chipReg x = s.chipReg x) ∧
    (∀ i a, (i = .applyMode1 0 ∧ a = s.params.regMode1) ∨ (i = .applyMode2 0 ∧ a = s.params.regMode2) →
      ∃ t u, exec i s = .next t ∧ step t = .next u ∧ u.RespondsOk ∧
        (s.params.emptyForm = .pointerOnly → u.chipReg a = s.chipReg a) ∧
        (s.params.emptyForm = .writeZero → u.chipReg a = some 0) ∧
        ∀ x, x ≠ a → u.chipReg x = s.chipReg x) ∧
    (∃ t u, exec .closeDevice s = .next t ∧ step t = .next u ∧ u.RespondsOk ∧
      ∀ x, u.chipReg x = s.chipReg x)

/-- R712 with the default parameters: SET_CHANNEL with an id in [0,15] on an undisturbed double with AI set stores
exactly the channel's four registers; the address is `chan_addr(id)` and every register outside its four is
unchanged. -/
def Obligations.SetChannelStoresItsFourRegisters : Prop :=
  ∀ (s : State) (d : Double) (id : BitVec 8) (on off : BitVec 16),
    s.rst = false → s.bound = true → s.params = Params.default → s.env.source = .double d → d.Calm →
    Memory.wf d.regs = true → d.autoIncrement s.params = true → id.toNat ≤ 15 →
    ∃ t u, exec (.setChannel id on off) s = .next t ∧ step t = .next u ∧ u.RespondsOk ∧
      u.chipReg (chanAddr s.params id) = some (lowByte on) ∧
      u.chipReg (chanAddr s.params id + 1) = some (highByte on) ∧
      u.chipReg (chanAddr s.params id + 2) = some (lowByte off) ∧
      u.chipReg (chanAddr s.params id + 3) = some (highByte off) ∧
      ∀ x, (∀ k < 4, x ≠ chanAddr s.params id + BitVec.ofNat 8 k) → u.chipReg x = s.chipReg x

/-- R454, R455 on an undisturbed double: SET_FREQUENCY stores the prescale (PRE_SCALE is written while SLEEP is set),
leaves MODE1 awake with AI set and ALLCALL clear, MODE2 as `m2(x, 0x05)`, and every other register unchanged. The
double clears RESTART at each store (R233). -/
def Obligations.SetFrequencyConfiguresTheDouble : Prop :=
  ∀ (s : State) (d : Double) (freq : BitVec 32),
    s.rst = false → s.bound = true → freq ≠ 0 → s.params.wf → s.env.source = .double d → d.Calm →
    Memory.wf d.regs = true →
    ∃ t u v, exec (.setFrequency freq) s = .next t ∧ runSteps 10 t = .next u ∧ u.RespondsOk ∧
      u.chipReg s.params.regPreScale = some (prescale s.params freq.toNat) ∧
      u.chipReg s.params.regMode2 = some (m2 s.params (d.reg s.params.regMode2) req2Freq) ∧
      u.chipReg s.params.regMode1 = some v ∧
      (∀ k : Fin 8, v.getLsbD k.val =
        (if k = s.params.m1.ai then true
         else if k = s.params.m1.sleep ∨ k = s.params.m1.allcall ∨ k = s.params.m1.restart then false
         else (d.reg s.params.regMode1).getLsbD k.val)) ∧
      ∀ x, x ≠ s.params.regMode1 → x ≠ s.params.regMode2 → x ≠ s.params.regPreScale → u.chipReg x = s.chipReg x

/-- R704 on an undisturbed double, for both forms of an empty request: what a successful OPEN leaves in the chip. Under
WRITE_ZERO its third and fourth transactions store 0x00 to MODE1 and MODE2 before they are read (R421, R431). The double
clears RESTART at each store (R233) and answers chan = 1 (R235). -/
def Obligations.OpenConfiguresTheDouble : Prop :=
  ∀ (s : State) (d : Double) (path : Token) (addr7 : BitVec 7),
    s.rst = false → s.bound = false → s.params.wf → s.env.source = .double d → d.Calm → Memory.wf d.regs = true →
    ∃ t u v, exec (.openDevice path addr7) s = .next t ∧ runSteps 17 t = .next u ∧ u.RespondsOk ∧
      u.bound = true ∧ u.chan = 1 ∧
      u.chipReg s.params.regPreScale = some (prescale s.params s.params.defaultFreq) ∧
      u.chipReg s.params.regMode2 =
        some (m2 s.params (m2 s.params (emptiedRegister s.params (d.reg s.params.regMode2)) req2Tp) req2Freq) ∧
      u.chipReg s.params.regMode1 = some v ∧
      (∀ k : Fin 8, v.getLsbD k.val =
        (if k = s.params.m1.ai then true
         else if k = s.params.m1.sleep ∨ k = s.params.m1.allcall ∨ k = s.params.m1.restart then false
         else (emptiedRegister s.params (d.reg s.params.regMode1)).getLsbD k.val)) ∧
      ∀ x, x ≠ s.params.regMode1 → x ≠ s.params.regMode2 → x ≠ s.params.regPreScale → u.chipReg x = s.chipReg x

/-- R223 on the double: another agent's write to MODE1 between the block's RD and WB is lost; the register ends as
`m1` of the stale byte (less RESTART, which the double clears), whatever the other agent wrote. -/
def Obligations.UnlockedWriteBetweenReadAndWriteBackIsLost : Prop :=
  ∀ (s : State) (d : Double) (req : BitVec 16) (x : Byte),
    s.rst = false → s.bound = true → s.params.wf → req ≠ 0 → req1Legal s.params req = true →
    s.env.source = .double d → d.inject = [] → d.others = [(s.env.txns + 2, [s.params.regMode1, x])] →
    Memory.wf d.regs = true →
    ∃ t u, exec (.applyMode1 req) s = .next t ∧ runSteps 3 t = .next u ∧ u.RespondsOk ∧
      u.chipReg s.params.regMode1 =
        some (m1 s.params (d.reg s.params.regMode1) req &&& ~~~bit s.params.m1.restart.val) ∧
      u.env.log.length = s.env.log.length + 4

/-- R457, R715 on the double: when SET_FREQUENCY's PRE_SCALE write is made to fail, the command fails
SHORT_TRANSFER, no later transaction is issued, PRE_SCALE is unchanged and the chip is left asleep. -/
def Obligations.FailedPrescaleWriteLeavesTheDoubleAsleep : Prop :=
  ∀ (s : State) (d : Double) (freq : BitVec 32),
    s.rst = false → s.bound = true → freq ≠ 0 → s.params.wf → s.env.source = .double d →
    d.inject = [s.env.txns + 3] → d.others = [] → Memory.wf d.regs = true →
    ∃ t u v, exec (.setFrequency freq) s = .next t ∧ runSteps 4 t = .next u ∧ u.RespondsFail .shortTransfer ∧
      u.bound = true ∧ u.env.blockTxns.length = s.env.blockTxns.length + 4 ∧
      u.chipReg s.params.regPreScale = some (d.reg s.params.regPreScale) ∧
      u.chipReg s.params.regMode1 = some v ∧ v.getLsbD s.params.m1.sleep.val = true

/-! ### The assembler -/

/-- R313: a braced MODE1 set that names no flag twice with different values assembles to a request whose ON and OFF
bits are exactly the named ones, and the block finds it legal; one that does is an assembly error. -/
def Obligations.BracedMode1SetNamesExactlyItsSlots : Prop :=
  ∀ (p : Params) (items : List Mode1Item), p.m1.positions.Nodup →
    (if ∃ x ∈ items, ∃ y ∈ items, x.flag = y.flag ∧ x.on ≠ y.on then assemble p (.mode1Set items) = none
     else ∃ req, assemble p (.mode1Set items) = some (.applyMode1 req) ∧ req1Legal p req = true ∧
      ∀ k < 8, (req.getLsbD (2 * k) = true ↔ ∃ x ∈ items, (x.flag.position p).val = k ∧ x.on = true) ∧
        (req.getLsbD (2 * k + 1) = true ↔ ∃ x ∈ items, (x.flag.position p).val = k ∧ x.on = false))
end

