-- ==== Sys2Proof/Laws/State.lean ====
section
/-! SUPPORT. One lemma per field per update of the state, true by rfl. -/

namespace Sys2Proof.Machine

/-! ### latch -/

@[simp] theorem State.latch_bound (s : State) (word : CmdWord) (rest : List CmdWord) : (s.latch word rest).bound = s.bound := rfl
@[simp] theorem State.latch_chan (s : State) (word : CmdWord) (rest : List CmdWord) : (s.latch word rest).chan = s.chan := rfl
@[simp] theorem State.latch_phase (s : State) (word : CmdWord) (rest : List CmdWord) : (s.latch word rest).phase = s.phase := rfl
@[simp] theorem State.latch_upc (s : State) (word : CmdWord) (rest : List CmdWord) : (s.latch word rest).upc = s.upc := rfl
@[simp] theorem State.latch_cmd (s : State) (word : CmdWord) (rest : List CmdWord) : (s.latch word rest).cmd = word := rfl
@[simp] theorem State.latch_script (s : State) (word : CmdWord) (rest : List CmdWord) : (s.latch word rest).script = s.script := rfl
@[simp] theorem State.latch_w (s : State) (word : CmdWord) (rest : List CmdWord) : (s.latch word rest).w = s.w := rfl
@[simp] theorem State.latch_wFresh (s : State) (word : CmdWord) (rest : List CmdWord) : (s.latch word rest).wFresh = s.wFresh := rfl
@[simp] theorem State.latch_p (s : State) (word : CmdWord) (rest : List CmdWord) : (s.latch word rest).p = s.p := rfl
@[simp] theorem State.latch_rspValid (s : State) (word : CmdWord) (rest : List CmdWord) : (s.latch word rest).rspValid = false := rfl
@[simp] theorem State.latch_rspStatus (s : State) (word : CmdWord) (rest : List CmdWord) : (s.latch word rest).rspStatus = s.rspStatus := rfl
@[simp] theorem State.latch_rspCause (s : State) (word : CmdWord) (rest : List CmdWord) : (s.latch word rest).rspCause = s.rspCause := rfl
@[simp] theorem State.latch_rspClose (s : State) (word : CmdWord) (rest : List CmdWord) : (s.latch word rest).rspClose = s.rspClose := rfl
@[simp] theorem State.latch_free (s : State) (word : CmdWord) (rest : List CmdWord) : (s.latch word rest).free = s.free := rfl
@[simp] theorem State.latch_params (s : State) (word : CmdWord) (rest : List CmdWord) : (s.latch word rest).params = s.params := rfl
@[simp] theorem State.latch_cmds (s : State) (word : CmdWord) (rest : List CmdWord) : (s.latch word rest).cmds = rest := rfl
@[simp] theorem State.latch_rst (s : State) (word : CmdWord) (rest : List CmdWord) : (s.latch word rest).rst = s.rst := rfl
@[simp] theorem State.latch_env (s : State) (word : CmdWord) (rest : List CmdWord) : (s.latch word rest).env = s.env := rfl

/-! ### start -/

@[simp] theorem State.start_bound (s : State) (l : List MicroOp) : (s.start l).bound = s.bound := rfl
@[simp] theorem State.start_chan (s : State) (l : List MicroOp) : (s.start l).chan = s.chan := rfl
@[simp] theorem State.start_phase (s : State) (l : List MicroOp) : (s.start l).phase = .busy := rfl
@[simp] theorem State.start_upc (s : State) (l : List MicroOp) : (s.start l).upc = 0 := rfl
@[simp] theorem State.start_cmd (s : State) (l : List MicroOp) : (s.start l).cmd = s.cmd := rfl
@[simp] theorem State.start_script (s : State) (l : List MicroOp) : (s.start l).script = l := rfl
@[simp] theorem State.start_w (s : State) (l : List MicroOp) : (s.start l).w = s.w := rfl
@[simp] theorem State.start_wFresh (s : State) (l : List MicroOp) : (s.start l).wFresh = false := rfl
@[simp] theorem State.start_p (s : State) (l : List MicroOp) : (s.start l).p = s.p := rfl
@[simp] theorem State.start_rspValid (s : State) (l : List MicroOp) : (s.start l).rspValid = s.rspValid := rfl
@[simp] theorem State.start_rspStatus (s : State) (l : List MicroOp) : (s.start l).rspStatus = s.rspStatus := rfl
@[simp] theorem State.start_rspCause (s : State) (l : List MicroOp) : (s.start l).rspCause = s.rspCause := rfl
@[simp] theorem State.start_rspClose (s : State) (l : List MicroOp) : (s.start l).rspClose = s.rspClose := rfl
@[simp] theorem State.start_free (s : State) (l : List MicroOp) : (s.start l).free = s.free := rfl
@[simp] theorem State.start_params (s : State) (l : List MicroOp) : (s.start l).params = s.params := rfl
@[simp] theorem State.start_cmds (s : State) (l : List MicroOp) : (s.start l).cmds = s.cmds := rfl
@[simp] theorem State.start_rst (s : State) (l : List MicroOp) : (s.start l).rst = s.rst := rfl
@[simp] theorem State.start_env (s : State) (l : List MicroOp) : (s.start l).env = s.env := rfl

/-! ### withEnv -/

@[simp] theorem State.withEnv_bound (s : State) (e : Env) : (s.withEnv e).bound = s.bound := rfl
@[simp] theorem State.withEnv_chan (s : State) (e : Env) : (s.withEnv e).chan = s.chan := rfl
@[simp] theorem State.withEnv_phase (s : State) (e : Env) : (s.withEnv e).phase = s.phase := rfl
@[simp] theorem State.withEnv_upc (s : State) (e : Env) : (s.withEnv e).upc = s.upc := rfl
@[simp] theorem State.withEnv_cmd (s : State) (e : Env) : (s.withEnv e).cmd = s.cmd := rfl
@[simp] theorem State.withEnv_script (s : State) (e : Env) : (s.withEnv e).script = s.script := rfl
@[simp] theorem State.withEnv_w (s : State) (e : Env) : (s.withEnv e).w = s.w := rfl
@[simp] theorem State.withEnv_wFresh (s : State) (e : Env) : (s.withEnv e).wFresh = s.wFresh := rfl
@[simp] theorem State.withEnv_p (s : State) (e : Env) : (s.withEnv e).p = s.p := rfl
@[simp] theorem State.withEnv_rspValid (s : State) (e : Env) : (s.withEnv e).rspValid = s.rspValid := rfl
@[simp] theorem State.withEnv_rspStatus (s : State) (e : Env) : (s.withEnv e).rspStatus = s.rspStatus := rfl
@[simp] theorem State.withEnv_rspCause (s : State) (e : Env) : (s.withEnv e).rspCause = s.rspCause := rfl
@[simp] theorem State.withEnv_rspClose (s : State) (e : Env) : (s.withEnv e).rspClose = s.rspClose := rfl
@[simp] theorem State.withEnv_free (s : State) (e : Env) : (s.withEnv e).free = s.free := rfl
@[simp] theorem State.withEnv_params (s : State) (e : Env) : (s.withEnv e).params = s.params := rfl
@[simp] theorem State.withEnv_cmds (s : State) (e : Env) : (s.withEnv e).cmds = s.cmds := rfl
@[simp] theorem State.withEnv_rst (s : State) (e : Env) : (s.withEnv e).rst = s.rst := rfl
@[simp] theorem State.withEnv_env (s : State) (e : Env) : (s.withEnv e).env = e := rfl

/-! ### withUpc -/

@[simp] theorem State.withUpc_bound (s : State) (n : Nat) : (s.withUpc n).bound = s.bound := rfl
@[simp] theorem State.withUpc_chan (s : State) (n : Nat) : (s.withUpc n).chan = s.chan := rfl
@[simp] theorem State.withUpc_phase (s : State) (n : Nat) : (s.withUpc n).phase = s.phase := rfl
@[simp] theorem State.withUpc_upc (s : State) (n : Nat) : (s.withUpc n).upc = n := rfl
@[simp] theorem State.withUpc_cmd (s : State) (n : Nat) : (s.withUpc n).cmd = s.cmd := rfl
@[simp] theorem State.withUpc_script (s : State) (n : Nat) : (s.withUpc n).script = s.script := rfl
@[simp] theorem State.withUpc_w (s : State) (n : Nat) : (s.withUpc n).w = s.w := rfl
@[simp] theorem State.withUpc_wFresh (s : State) (n : Nat) : (s.withUpc n).wFresh = s.wFresh := rfl
@[simp] theorem State.withUpc_p (s : State) (n : Nat) : (s.withUpc n).p = s.p := rfl
@[simp] theorem State.withUpc_rspValid (s : State) (n : Nat) : (s.withUpc n).rspValid = s.rspValid := rfl
@[simp] theorem State.withUpc_rspStatus (s : State) (n : Nat) : (s.withUpc n).rspStatus = s.rspStatus := rfl
@[simp] theorem State.withUpc_rspCause (s : State) (n : Nat) : (s.withUpc n).rspCause = s.rspCause := rfl
@[simp] theorem State.withUpc_rspClose (s : State) (n : Nat) : (s.withUpc n).rspClose = s.rspClose := rfl
@[simp] theorem State.withUpc_free (s : State) (n : Nat) : (s.withUpc n).free = s.free := rfl
@[simp] theorem State.withUpc_params (s : State) (n : Nat) : (s.withUpc n).params = s.params := rfl
@[simp] theorem State.withUpc_cmds (s : State) (n : Nat) : (s.withUpc n).cmds = s.cmds := rfl
@[simp] theorem State.withUpc_rst (s : State) (n : Nat) : (s.withUpc n).rst = s.rst := rfl
@[simp] theorem State.withUpc_env (s : State) (n : Nat) : (s.withUpc n).env = s.env := rfl

/-! ### loadPrescale -/

@[simp] theorem State.loadPrescale_bound (s : State) (v : Byte) : (s.loadPrescale v).bound = s.bound := rfl
@[simp] theorem State.loadPrescale_chan (s : State) (v : Byte) : (s.loadPrescale v).chan = s.chan := rfl
@[simp] theorem State.loadPrescale_phase (s : State) (v : Byte) : (s.loadPrescale v).phase = s.phase := rfl
@[simp] theorem State.loadPrescale_upc (s : State) (v : Byte) : (s.loadPrescale v).upc = s.upc := rfl
@[simp] theorem State.loadPrescale_cmd (s : State) (v : Byte) : (s.loadPrescale v).cmd = s.cmd := rfl
@[simp] theorem State.loadPrescale_script (s : State) (v : Byte) : (s.loadPrescale v).script = s.script := rfl
@[simp] theorem State.loadPrescale_w (s : State) (v : Byte) : (s.loadPrescale v).w = s.w := rfl
@[simp] theorem State.loadPrescale_wFresh (s : State) (v : Byte) : (s.loadPrescale v).wFresh = s.wFresh := rfl
@[simp] theorem State.loadPrescale_p (s : State) (v : Byte) : (s.loadPrescale v).p = v := rfl
@[simp] theorem State.loadPrescale_rspValid (s : State) (v : Byte) : (s.loadPrescale v).rspValid = s.rspValid := rfl
@[simp] theorem State.loadPrescale_rspStatus (s : State) (v : Byte) : (s.loadPrescale v).rspStatus = s.rspStatus := rfl
@[simp] theorem State.loadPrescale_rspCause (s : State) (v : Byte) : (s.loadPrescale v).rspCause = s.rspCause := rfl
@[simp] theorem State.loadPrescale_rspClose (s : State) (v : Byte) : (s.loadPrescale v).rspClose = s.rspClose := rfl
@[simp] theorem State.loadPrescale_free (s : State) (v : Byte) : (s.loadPrescale v).free = s.free := rfl
@[simp] theorem State.loadPrescale_params (s : State) (v : Byte) : (s.loadPrescale v).params = s.params := rfl
@[simp] theorem State.loadPrescale_cmds (s : State) (v : Byte) : (s.loadPrescale v).cmds = s.cmds := rfl
@[simp] theorem State.loadPrescale_rst (s : State) (v : Byte) : (s.loadPrescale v).rst = s.rst := rfl
@[simp] theorem State.loadPrescale_env (s : State) (v : Byte) : (s.loadPrescale v).env = s.env := rfl

/-! ### respond -/

@[simp] theorem State.respond_bound (s : State) (st : Status) (c : Cause) : (s.respond st c).bound = s.bound := rfl
@[simp] theorem State.respond_chan (s : State) (st : Status) (c : Cause) : (s.respond st c).chan = s.chan := rfl
@[simp] theorem State.respond_phase (s : State) (st : Status) (c : Cause) : (s.respond st c).phase = .idle := rfl
@[simp] theorem State.respond_upc (s : State) (st : Status) (c : Cause) : (s.respond st c).upc = s.upc := rfl
@[simp] theorem State.respond_cmd (s : State) (st : Status) (c : Cause) : (s.respond st c).cmd = s.cmd := rfl
@[simp] theorem State.respond_script (s : State) (st : Status) (c : Cause) : (s.respond st c).script = s.script := rfl
@[simp] theorem State.respond_w (s : State) (st : Status) (c : Cause) : (s.respond st c).w = s.w := rfl
@[simp] theorem State.respond_wFresh (s : State) (st : Status) (c : Cause) : (s.respond st c).wFresh = s.wFresh := rfl
@[simp] theorem State.respond_p (s : State) (st : Status) (c : Cause) : (s.respond st c).p = s.p := rfl
@[simp] theorem State.respond_rspValid (s : State) (st : Status) (c : Cause) : (s.respond st c).rspValid = true := rfl
@[simp] theorem State.respond_rspStatus (s : State) (st : Status) (c : Cause) : (s.respond st c).rspStatus = st := rfl
@[simp] theorem State.respond_rspCause (s : State) (st : Status) (c : Cause) : (s.respond st c).rspCause = c := rfl
@[simp] theorem State.respond_rspClose (s : State) (st : Status) (c : Cause) : (s.respond st c).rspClose = s.rspClose := rfl
@[simp] theorem State.respond_free (s : State) (st : Status) (c : Cause) : (s.respond st c).free = s.free := rfl
@[simp] theorem State.respond_params (s : State) (st : Status) (c : Cause) : (s.respond st c).params = s.params := rfl
@[simp] theorem State.respond_cmds (s : State) (st : Status) (c : Cause) : (s.respond st c).cmds = s.cmds := rfl
@[simp] theorem State.respond_rst (s : State) (st : Status) (c : Cause) : (s.respond st c).rst = s.rst := rfl
@[simp] theorem State.respond_env (s : State) (st : Status) (c : Cause) : (s.respond st c).env = s.env := rfl

/-! ### looseClose -/

@[simp] theorem State.looseClose_bound (s : State) : s.looseClose.bound = s.bound := rfl
@[simp] theorem State.looseClose_chan (s : State) : s.looseClose.chan = s.chan := rfl
@[simp] theorem State.looseClose_phase (s : State) : s.looseClose.phase = s.phase := rfl
@[simp] theorem State.looseClose_upc (s : State) : s.looseClose.upc = s.upc := rfl
@[simp] theorem State.looseClose_cmd (s : State) : s.looseClose.cmd = s.cmd := rfl
@[simp] theorem State.looseClose_script (s : State) : s.looseClose.script = s.script := rfl
@[simp] theorem State.looseClose_w (s : State) : s.looseClose.w = s.w := rfl
@[simp] theorem State.looseClose_wFresh (s : State) : s.looseClose.wFresh = s.wFresh := rfl
@[simp] theorem State.looseClose_p (s : State) : s.looseClose.p = s.p := rfl
@[simp] theorem State.looseClose_rspValid (s : State) : s.looseClose.rspValid = s.rspValid := rfl
@[simp] theorem State.looseClose_rspStatus (s : State) : s.looseClose.rspStatus = s.rspStatus := rfl
@[simp] theorem State.looseClose_rspCause (s : State) : s.looseClose.rspCause = s.rspCause := rfl
@[simp] theorem State.looseClose_rspClose (s : State) : s.looseClose.rspClose = Config.freeRspClose s.free := rfl
@[simp] theorem State.looseClose_free (s : State) : s.looseClose.free = s.free + 1 := rfl
@[simp] theorem State.looseClose_params (s : State) : s.looseClose.params = s.params := rfl
@[simp] theorem State.looseClose_cmds (s : State) : s.looseClose.cmds = s.cmds := rfl
@[simp] theorem State.looseClose_rst (s : State) : s.looseClose.rst = s.rst := rfl
@[simp] theorem State.looseClose_env (s : State) : s.looseClose.env = s.env := rfl

/-! ### raise -/

@[simp] theorem State.raise_bound (s : State) (c : Cause) : (s.raise c).bound = s.bound := rfl
@[simp] theorem State.raise_chan (s : State) (c : Cause) : (s.raise c).chan = s.chan := rfl
@[simp] theorem State.raise_phase (s : State) (c : Cause) : (s.raise c).phase = .idle := rfl
@[simp] theorem State.raise_upc (s : State) (c : Cause) : (s.raise c).upc = s.upc := rfl
@[simp] theorem State.raise_cmd (s : State) (c : Cause) : (s.raise c).cmd = s.cmd := rfl
@[simp] theorem State.raise_script (s : State) (c : Cause) : (s.raise c).script = s.script := rfl
@[simp] theorem State.raise_w (s : State) (c : Cause) : (s.raise c).w = s.w := rfl
@[simp] theorem State.raise_wFresh (s : State) (c : Cause) : (s.raise c).wFresh = s.wFresh := rfl
@[simp] theorem State.raise_p (s : State) (c : Cause) : (s.raise c).p = s.p := rfl
@[simp] theorem State.raise_rspValid (s : State) (c : Cause) : (s.raise c).rspValid = true := rfl
@[simp] theorem State.raise_rspStatus (s : State) (c : Cause) : (s.raise c).rspStatus = .fail := rfl
@[simp] theorem State.raise_rspCause (s : State) (c : Cause) : (s.raise c).rspCause = c := rfl
@[simp] theorem State.raise_rspClose (s : State) (c : Cause) : (s.raise c).rspClose = Config.freeRspClose s.free := rfl
@[simp] theorem State.raise_free (s : State) (c : Cause) : (s.raise c).free = s.free + 1 := rfl
@[simp] theorem State.raise_params (s : State) (c : Cause) : (s.raise c).params = s.params := rfl
@[simp] theorem State.raise_cmds (s : State) (c : Cause) : (s.raise c).cmds = s.cmds := rfl
@[simp] theorem State.raise_rst (s : State) (c : Cause) : (s.raise c).rst = s.rst := rfl
@[simp] theorem State.raise_env (s : State) (c : Cause) : (s.raise c).env = s.env := rfl

/-! ### blockReset -/

@[simp] theorem State.blockReset_bound (s : State) : s.blockReset.bound = false := rfl
@[simp] theorem State.blockReset_chan (s : State) : s.blockReset.chan = 0 := rfl
@[simp] theorem State.blockReset_phase (s : State) : s.blockReset.phase = .idle := rfl
@[simp] theorem State.blockReset_upc (s : State) : s.blockReset.upc = 0 := rfl
@[simp] theorem State.blockReset_cmd (s : State) : s.blockReset.cmd = 0 := rfl
@[simp] theorem State.blockReset_script (s : State) : s.blockReset.script = [] := rfl
@[simp] theorem State.blockReset_w (s : State) : s.blockReset.w = 0 := rfl
@[simp] theorem State.blockReset_wFresh (s : State) : s.blockReset.wFresh = false := rfl
@[simp] theorem State.blockReset_p (s : State) : s.blockReset.p = 0 := rfl
@[simp] theorem State.blockReset_rspValid (s : State) : s.blockReset.rspValid = false := rfl
@[simp] theorem State.blockReset_rspStatus (s : State) : s.blockReset.rspStatus = .ok := rfl
@[simp] theorem State.blockReset_rspCause (s : State) : s.blockReset.rspCause = .none := rfl
@[simp] theorem State.blockReset_rspClose (s : State) : s.blockReset.rspClose = 0 := rfl
@[simp] theorem State.blockReset_free (s : State) : s.blockReset.free = s.free := rfl
@[simp] theorem State.blockReset_params (s : State) : s.blockReset.params = s.params := rfl
@[simp] theorem State.blockReset_cmds (s : State) : s.blockReset.cmds = s.cmds := rfl
@[simp] theorem State.blockReset_rst (s : State) : s.blockReset.rst = false := rfl

/-! ### present -/

@[simp] theorem State.present_bound (s : State) (word : CmdWord) : (s.present word).bound = s.bound := rfl
@[simp] theorem State.present_chan (s : State) (word : CmdWord) : (s.present word).chan = s.chan := rfl
@[simp] theorem State.present_phase (s : State) (word : CmdWord) : (s.present word).phase = .idle := rfl
@[simp] theorem State.present_upc (s : State) (word : CmdWord) : (s.present word).upc = s.upc := rfl
@[simp] theorem State.present_cmd (s : State) (word : CmdWord) : (s.present word).cmd = s.cmd := rfl
@[simp] theorem State.present_script (s : State) (word : CmdWord) : (s.present word).script = s.script := rfl
@[simp] theorem State.present_w (s : State) (word : CmdWord) : (s.present word).w = s.w := rfl
@[simp] theorem State.present_wFresh (s : State) (word : CmdWord) : (s.present word).wFresh = s.wFresh := rfl
@[simp] theorem State.present_p (s : State) (word : CmdWord) : (s.present word).p = s.p := rfl
@[simp] theorem State.present_rspValid (s : State) (word : CmdWord) : (s.present word).rspValid = s.rspValid := rfl
@[simp] theorem State.present_rspStatus (s : State) (word : CmdWord) : (s.present word).rspStatus = s.rspStatus := rfl
@[simp] theorem State.present_rspCause (s : State) (word : CmdWord) : (s.present word).rspCause = s.rspCause := rfl
@[simp] theorem State.present_rspClose (s : State) (word : CmdWord) : (s.present word).rspClose = s.rspClose := rfl
@[simp] theorem State.present_free (s : State) (word : CmdWord) : (s.present word).free = s.free := rfl
@[simp] theorem State.present_params (s : State) (word : CmdWord) : (s.present word).params = s.params := rfl
@[simp] theorem State.present_cmds (s : State) (word : CmdWord) : (s.present word).cmds = word :: s.cmds := rfl
@[simp] theorem State.present_rst (s : State) (word : CmdWord) : (s.present word).rst = false := rfl
@[simp] theorem State.present_env (s : State) (word : CmdWord) : (s.present word).env = s.env := rfl

end Sys2Proof.Machine
end

