-- ==== Sys2Proof/Laws/Memory.lean ====
section
/-! SUPPORT. The register space: reads after writes, and the canonical form kept by every operation (20_memory
R230 to R235). -/

namespace Sys2Proof.Machine

theorem Memory.get_put_same (m : Memory) (a : Nat) (v : Byte) (lo : Nat) (h : Memory.wfFrom lo m = true) :
    Memory.get (Memory.put m a v) a = v := by
  induction m generalizing lo with
  | nil => by_cases hv : v = powerOn a <;> simp [Memory.put, Memory.get, hv]
  | cons c rest ih =>
    obtain ⟨b, x⟩ := c
    simp only [Memory.wfFrom, Bool.and_eq_true, decide_eq_true_eq] at h
    have unlisted : ∀ (lo' : Nat) (r : Memory), Memory.wfFrom lo' r = true → a < lo' → Memory.get r a = powerOn a := by
      intro lo' r
      induction r generalizing lo' with
      | nil => intros; rfl
      | cons d r' ihr =>
        intro hr hlt
        simp only [Memory.wfFrom, Bool.and_eq_true, decide_eq_true_eq] at hr
        have hne : a ≠ d.1 := by omega
        rw [Memory.get, if_neg hne]
        exact ihr (d.1 + 1) hr.2 (by omega)
    simp only [Memory.put]
    by_cases hlt : a < b
    · by_cases hv : v = powerOn a
      · have hne : a ≠ b := by omega
        simp only [hlt, hv, if_true, Memory.get, if_neg hne]
        exact unlisted (b + 1) rest h.2 (by omega)
      · simp [hlt, hv, Memory.get]
    · by_cases hab : a = b
      · by_cases hv : v = powerOn a
        · subst hab
          simp only [lt_irrefl, if_false, if_true, hv]
          exact unlisted (a + 1) rest h.2 (by omega)
        · subst hab
          simp [hv, Memory.get]
      · simp only [hlt, hab, if_false, Memory.get]
        exact ih (b + 1) h.2

theorem Memory.get_put_other (m : Memory) (a c : Nat) (v : Byte) (h : c ≠ a) :
    Memory.get (Memory.put m a v) c = Memory.get m c := by
  induction m with
  | nil => by_cases hv : v = powerOn a <;> simp [Memory.put, Memory.get, hv, h]
  | cons d rest ih =>
    obtain ⟨b, x⟩ := d
    simp only [Memory.put]
    by_cases hlt : a < b
    · by_cases hv : v = powerOn a <;> simp [hlt, hv, Memory.get, h]
    · by_cases hab : a = b
      · subst hab
        by_cases hv : v = powerOn a <;> simp [hv, Memory.get, h]
      · simp only [hlt, hab, if_false, Memory.get, ih]

theorem Memory.wfFrom_put (m : Memory) (lo a : Nat) (v : Byte) (hlo : lo ≤ a) (ha : a < 256)
    (h : Memory.wfFrom lo m = true) : Memory.wfFrom lo (Memory.put m a v) = true := by
  induction m generalizing lo with
  | nil => by_cases hv : v = powerOn a <;> simp [Memory.put, Memory.wfFrom, hv, hlo, ha]
  | cons d rest ih =>
    obtain ⟨b, x⟩ := d
    simp only [Memory.wfFrom, Bool.and_eq_true, decide_eq_true_eq, bne_iff_ne] at h
    obtain ⟨⟨⟨h1, h2⟩, h3⟩, h4⟩ := h
    simp only [Memory.put]
    by_cases hlt : a < b
    · by_cases hv : v = powerOn a
      · simp [hlt, hv, Memory.wfFrom, h1, h2, h3, h4]
      · simp [hlt, hv, Memory.wfFrom, hlo, ha, h2, h3, h4]
    · by_cases hab : a = b
      · subst hab
        by_cases hv : v = powerOn a
        · have weaken : ∀ (l1 l2 : Nat) (r : Memory), l1 ≤ l2 → Memory.wfFrom l2 r = true → Memory.wfFrom l1 r = true := by
            intro l1 l2 r hl hr
            cases r with
            | nil => rfl
            | cons e r' =>
              simp only [Memory.wfFrom, Bool.and_eq_true, decide_eq_true_eq] at hr ⊢
              exact ⟨⟨⟨by omega, hr.1.1.2⟩, hr.1.2⟩, hr.2⟩
          simp only [lt_irrefl, if_false, if_true, hv]
          exact weaken lo (a + 1) rest (by omega) h4
        · simp [hv, Memory.wfFrom, hlo, ha, h4]
      · simp only [hlt, hab, if_false, Memory.wfFrom, Bool.and_eq_true, decide_eq_true_eq, bne_iff_ne]
        exact ⟨⟨⟨h1, h2⟩, h3⟩, ih (b + 1) (by omega) h4⟩

/-- Every write keeps the canonical form. -/
theorem Memory.wf_put (m : Memory) (a : Byte) (v : Byte) (h : Memory.wf m = true) :
    Memory.wf (Memory.put m a.toNat v) = true :=
  Memory.wfFrom_put m 0 a.toNat v (Nat.zero_le _) a.isLt h

theorem Memory.wf_powerOn : Memory.wf Double.powerOn.regs = true := rfl

/-! ### The double -/

/-- What a store leaves in the registers. -/
theorem Double.reg_store (p : Params) (d : Double) (v : Byte) (a : Byte) (h : Memory.wf d.regs = true) :
    (d.store p v).reg a =
      if a = d.ptr then
        if d.ptr = p.regPreScale ∧ d.asleep p = false then d.reg a
        else if d.ptr = p.regMode1 then v &&& ~~~bit p.m1.restart.val
        else v
      else d.reg a := by
  have toNat_ne : a ≠ d.ptr → a.toNat ≠ d.ptr.toNat := fun hne he => hne (BitVec.eq_of_toNat_eq he)
  unfold Double.store
  split
  · split <;> rfl
  · split <;> by_cases hne : a = d.ptr
    · simp [Double.reg, hne, Memory.get_put_same d.regs _ _ 0 h]
    · simp [Double.reg, hne, Memory.get_put_other _ _ _ _ (toNat_ne hne)]
    · simp [Double.reg, hne, Memory.get_put_same d.regs _ _ 0 h]
    · simp [Double.reg, hne, Memory.get_put_other _ _ _ _ (toNat_ne hne)]

@[simp] theorem Double.store_ptr (p : Params) (d : Double) (v : Byte) : (d.store p v).ptr = d.ptr := by
  unfold Double.store; split <;> [rfl; split <;> rfl]

@[simp] theorem Double.store_inject (p : Params) (d : Double) (v : Byte) : (d.store p v).inject = d.inject := by
  unfold Double.store; split <;> [rfl; split <;> rfl]

@[simp] theorem Double.store_others (p : Params) (d : Double) (v : Byte) : (d.store p v).others = d.others := by
  unfold Double.store; split <;> [rfl; split <;> rfl]

theorem Double.wf_store (p : Params) (d : Double) (v : Byte) (h : Memory.wf d.regs = true) :
    Memory.wf (d.store p v).regs = true := by
  unfold Double.store
  split
  · exact h
  · split <;> exact Memory.wf_put _ _ _ h

@[simp] theorem Double.advance_regs (p : Params) (d : Double) : (d.advance p).regs = d.regs := by
  unfold Double.advance; split <;> rfl

@[simp] theorem Double.advance_inject (p : Params) (d : Double) : (d.advance p).inject = d.inject := by
  unfold Double.advance; split <;> rfl

@[simp] theorem Double.advance_others (p : Params) (d : Double) : (d.advance p).others = d.others := by
  unfold Double.advance; split <;> rfl

@[simp] theorem Double.advance_reg (p : Params) (d : Double) (a : Byte) : (d.advance p).reg a = d.reg a := by
  simp [Double.reg]

theorem Double.advance_ptr (p : Params) (d : Double) :
    (d.advance p).ptr = if d.autoIncrement p then d.ptr + 1 else d.ptr := by
  unfold Double.advance; split <;> rfl

/-- A property of the double that stores and pointer moves keep is kept by a multi-byte write. -/
theorem Double.storeAll_keeps (P : Double → Prop) (p : Params)
    (hstore : ∀ d v, P d → P (d.store p v)) (hadv : ∀ d, P d → P (d.advance p)) :
    ∀ (data : List Byte) (d : Double), P d → P (Double.storeAll p d data)
  | [], _, h => h
  | [v], d, h => hstore d v h
  | v :: v' :: rest, d, h => by
    rw [Double.storeAll]
    exact Double.storeAll_keeps P p hstore hadv (v' :: rest) _ (hadv _ (hstore d v h))

theorem Double.wf_write (p : Params) (d : Double) (bytes : List Byte) (h : Memory.wf d.regs = true) :
    Memory.wf (d.write p bytes).regs = true := by
  cases bytes with
  | nil => exact h
  | cons a data =>
    exact Double.storeAll_keeps (fun d => Memory.wf d.regs = true) p
      (fun d v hd => Double.wf_store p d v hd) (fun d hd => by simpa using hd) data _ h

theorem Double.inject_write (p : Params) (d : Double) (bytes : List Byte) :
    (d.write p bytes).inject = d.inject := by
  cases bytes with
  | nil => rfl
  | cons a data =>
    exact Double.storeAll_keeps (fun e => e.inject = d.inject) p
      (fun e v he => by simpa using he) (fun e he => by simpa using he) data _ rfl

theorem Double.others_write (p : Params) (d : Double) (bytes : List Byte) :
    (d.write p bytes).others = d.others := by
  cases bytes with
  | nil => rfl
  | cons a data =>
    exact Double.storeAll_keeps (fun e => e.others = d.others) p
      (fun e v he => by simpa using he) (fun e he => by simpa using he) data _ rfl

/-- R231: a 1-byte write moves the pointer and nothing else. -/
@[simp] theorem Double.write_pointer (p : Params) (d : Double) (a : Byte) : d.write p [a] = { d with ptr := a } := rfl

/-- R232 with one data byte: one store at the address, where the pointer stays. -/
@[simp] theorem Double.write_two (p : Params) (d : Double) (a v : Byte) :
    d.write p [a, v] = Double.store p { d with ptr := a } v := rfl

theorem Double.wf_runOthers (p : Params) (ws : List (List Byte)) (d : Double) (h : Memory.wf d.regs = true) :
    Memory.wf (d.runOthers p ws).regs = true := by
  induction ws generalizing d with
  | nil => exact h
  | cons b ws ih => exact ih _ (Double.wf_write p d b h)

theorem Double.wf_respond (p : Params) (k : Nat) (d : Double) (q : BusRequest) (h : Memory.wf d.regs = true) :
    Memory.wf (d.respond p k q).2.regs = true := by
  cases q with
  | busOpen => simp only [Double.respond]; split <;> exact h
  | busBind => exact h
  | busWrite c bytes =>
    simp only [Double.respond]
    split
    · exact h
    · exact Double.wf_write p d bytes h
  | busRead => simp only [Double.respond]; split <;> exact h
  | busClose => exact h

@[simp] theorem Double.othersAt_calm (d : Double) (k : Nat) (h : d.others = []) : d.othersAt k = [] := by
  simp [Double.othersAt, h]

end Sys2Proof.Machine
end

