-- ==== Sys2Proof/Laws/Operands.lean ====
section
/-! SUPPORT. Bits of the compute functions' building blocks (00_scope R10, 30_encoding R305, R306). -/

namespace Sys2Proof.Machine

theorem getLsbD_bit (k j : Nat) : (bit k).getLsbD j = (decide (j < 8) && decide (j = k)) := by
  simp only [bit, BitVec.getLsbD_shiftLeft, BitVec.getLsbD_one]
  by_cases h : j = k
  · subst h; simp
  · simp [h]; omega

/-- The mask's bit k is `f k`. -/
theorem getLsbD_maskOf (f : Nat → Bool) (k : Nat) : (maskOf f).getLsbD k = (decide (k < 8) && f k) := by
  have general : ∀ (l : List Nat) (acc : Byte),
      (l.foldl (fun acc k => if f k then acc ||| bit k else acc) acc).getLsbD k =
        (acc.getLsbD k || (decide (k < 8) && (decide (k ∈ l) && f k))) := by
    intro l
    induction l with
    | nil => simp
    | cons x l ih =>
      intro acc
      rw [List.foldl_cons, ih]
      by_cases hx : k = x
      · subst hx
        by_cases hf : f k <;> by_cases hk : k < 8 <;> simp [hf, hk, getLsbD_bit]
      · by_cases hf : f x <;> simp [hf, hx, getLsbD_bit]
  rw [maskOf, general]
  by_cases hk : k < 8 <;> simp [hk]

theorem toNat_trunc8_ofNat (n : Nat) : (trunc8 (n : Int)).toNat = n % 256 := by
  simp [trunc8]

theorem req1On_ne_zero (k : Fin 8) : req1On k ≠ 0 := by revert k; decide

theorem req1Off_ne_zero (k : Fin 8) : req1Off k ≠ 0 := by revert k; decide

theorem req1Wake_ne_zero (p : Params) : req1Wake p ≠ 0 := req1Off_ne_zero _

theorem req1SleepSetup_ne_zero (p : Params) : req1SleepSetup p ≠ 0 := by
  intro h
  have h2 : (req1SleepSetup p).getLsbD (2 * p.m1.sleep.val) = true := by
    have : (req1On p.m1.sleep).getLsbD (2 * p.m1.sleep.val) = true := by
      generalize p.m1.sleep = k; revert k; decide
    simp only [req1SleepSetup, BitVec.getLsbD_or, this, Bool.true_or]
  rw [h] at h2
  simp at h2

end Sys2Proof.Machine
end

