-- ==== Sys2Proof/Laws/Ops.lean ====
section
/-! SUPPORT. The bus: what an answer can be, and what it does to the environment (20_memory R205, R219, R230). -/

namespace Sys2Proof.Machine

/-- Everything an answer can be. -/
theorem Env.answer_cases {p : Params} {e e' : Env} {q : BusRequest} {r : BusResponse}
    (h : e.answer p q = some (r, e')) :
    (∃ rest, e.source = .answers (r :: rest) ∧
      e' = { source := .answers rest, log := e.log ++ [.block q r], txns := e.txns + 1 }) ∨
    (∃ d, e.source = .double d ∧
      r = ((d.runOthers p (d.othersAt e.txns)).respond p e.txns q).1 ∧
      e' = { source := .double ((d.runOthers p (d.othersAt e.txns)).respond p e.txns q).2,
             log := e.log ++ (d.othersAt e.txns).map .other ++ [.block q r], txns := e.txns + 1 }) := by
  unfold Env.answer at h
  split at h
  · cases h
  · next r' rest hs => cases h; exact .inl ⟨rest, hs, rfl⟩
  · next d hs => cases h; exact .inr ⟨d, hs, rfl, rfl⟩

/-- A bus that never answers again is the only one that does not answer. -/
theorem Env.answer_none {p : Params} {e : Env} {q : BusRequest} :
    e.answer p q = none ↔ e.source = .answers [] := by
  unfold Env.answer
  split <;> simp_all

theorem Env.txns_answer {p : Params} {e e' : Env} {q : BusRequest} {r : BusResponse}
    (h : e.answer p q = some (r, e')) : e'.txns = e.txns + 1 := by
  obtain ⟨_, _, rfl⟩ | ⟨_, _, _, rfl⟩ := Env.answer_cases h <;> rfl

/-- An answered request is one transaction of the block more, the last of the log. -/
theorem Env.blockTxns_answer {p : Params} {e e' : Env} {q : BusRequest} {r : BusResponse}
    (h : e.answer p q = some (r, e')) : e'.blockTxns = e.blockTxns ++ [(q, r)] := by
  obtain ⟨_, _, rfl⟩ | ⟨d, _, _, rfl⟩ := Env.answer_cases h
  · simp [Env.blockTxns]
  · simp [Env.blockTxns, List.filterMap_append]

theorem Env.wf_answer {p : Params} {e e' : Env} {q : BusRequest} {r : BusResponse}
    (h : e.answer p q = some (r, e')) (hw : e.wf = true) : e'.wf = true := by
  obtain ⟨_, _, rfl⟩ | ⟨d, hs, _, rfl⟩ := Env.answer_cases h
  · rfl
  · simp only [Env.wf, hs] at hw ⊢
    exact Double.wf_respond p _ _ q (Double.wf_runOthers p _ d hw)

theorem Env.wf_dropAnswer {e : Env} (hw : e.wf = true) : e.dropAnswer.wf = true := by
  unfold Env.dropAnswer
  split
  · rfl
  · exact hw

@[simp] theorem Env.dropAnswer_log (e : Env) : e.dropAnswer.log = e.log := by
  unfold Env.dropAnswer; split <;> rfl

@[simp] theorem Env.dropAnswer_txns (e : Env) : e.dropAnswer.txns = e.txns := by
  unfold Env.dropAnswer; split <;> rfl

/-- A sequence of answers, taken apart at its head. -/
theorem Env.answerAll_cons {p : Params} {e e' : Env} {q : BusRequest} {qs : List BusRequest} {r : BusResponse}
    {rs : List BusResponse} (h : e.answerAll p (q :: qs) = some (r :: rs, e')) :
    ∃ e1, e.answer p q = some (r, e1) ∧ e1.answerAll p qs = some (rs, e') := by
  rw [Env.answerAll] at h
  split at h
  · cases h
  · next r1 e1 h1 =>
    split at h
    · cases h
    · next rs1 e2 h2 => cases h; exact ⟨e1, h1, h2⟩

theorem Env.answerAll_nil {p : Params} {e e' : Env} {rs : List BusResponse}
    (h : e.answerAll p [] = some (rs, e')) : rs = [] ∧ e' = e := by
  cases h; exact ⟨rfl, rfl⟩

/-- Answered requests are the block's next transactions, in order. -/
theorem Env.blockTxns_answerAll {p : Params} : ∀ {qs : List BusRequest} {rs : List BusResponse} {e e' : Env},
    e.answerAll p qs = some (rs, e') → e'.blockTxns = e.blockTxns ++ qs.zip rs ∧ rs.length = qs.length
  | [], rs, e, e', h => by obtain ⟨rfl, rfl⟩ := Env.answerAll_nil h; simp
  | q :: qs, rs, e, e', h => by
    rw [Env.answerAll] at h
    split at h
    · cases h
    · next r e1 h1 =>
      split at h
      · cases h
      · next rs1 e2 h2 =>
        cases h
        obtain ⟨h3, h4⟩ := Env.blockTxns_answerAll h2
        simp [h3, h4, Env.blockTxns_answer h1]

@[simp] theorem State.blockReset_env (s : State) :
    s.blockReset.env = match s.phase with | .idle => s.env | .busy => s.env.dropAnswer := rfl

end Sys2Proof.Machine
end

