-- ==== Sys2Proof/Laws/PerInstr.lean ====
section
/-! SUPPORT. Statements about the instruction as syntax, one lemma per constructor of Instr. -/

namespace Sys2Proof.Laws.EncodedInRow

/-- R303: the word of a well-formed instruction is selected by that instruction's row of the opcode map. -/
def Statement (i : Instr) : Prop := i.WellFormed → i.row.selects (encode i) = true

theorem openDevice (path : Token) (addr7 : BitVec 7) : Statement (.openDevice path addr7) := by
  intro _
  simp only [Instr.row, OpcodeRow.selects, rowOpen, encode, beq_iff_eq]
  apply BitVec.eq_of_getLsbD_eq
  intro k hk
  simp only [BitVec.getLsbD_and, BitVec.getLsbD_append]
  interval_cases k <;> simp

theorem closeDevice : Statement .closeDevice := by
  intro _
  decide

theorem applyMode1 (req16 : BitVec 16) : Statement (.applyMode1 req16) := by
  intro _
  simp only [Instr.row, OpcodeRow.selects, rowApplyMode1, encode, beq_iff_eq]
  apply BitVec.eq_of_getLsbD_eq
  intro k hk
  simp only [BitVec.getLsbD_and, BitVec.getLsbD_append]
  interval_cases k <;> simp

theorem applyMode2 (req8 : BitVec 8) : Statement (.applyMode2 req8) := by
  intro h
  simp only [Instr.WellFormed, Instr.wellFormed, beq_iff_eq] at h
  have h6 : req8[6] = false := by simpa using congrArg (·.getLsbD 0) h
  have h7 : req8[7] = false := by simpa using congrArg (·.getLsbD 1) h
  simp only [Instr.row, OpcodeRow.selects, rowApplyMode2, encode, beq_iff_eq]
  apply BitVec.eq_of_getLsbD_eq
  intro k hk
  simp only [BitVec.getLsbD_and, BitVec.getLsbD_append]
  interval_cases k <;> simp [h6, h7]

theorem setFrequency (freq : BitVec 32) : Statement (.setFrequency freq) := by
  intro _
  simp only [Instr.row, OpcodeRow.selects, rowSetFrequency, encode, beq_iff_eq]
  apply BitVec.eq_of_getLsbD_eq
  intro k hk
  simp only [BitVec.getLsbD_and, BitVec.getLsbD_append]
  interval_cases k <;> simp

theorem setChannel (id : BitVec 8) (on off : BitVec 16) : Statement (.setChannel id on off) := by
  intro _
  simp only [Instr.row, OpcodeRow.selects, rowSetChannel, encode, beq_iff_eq]
  apply BitVec.eq_of_getLsbD_eq
  intro k hk
  simp only [BitVec.getLsbD_and, BitVec.getLsbD_append]
  interval_cases k <;> simp

end Sys2Proof.Laws.EncodedInRow
end

