-- ==== Sys2Proof/Laws/Sequencer.lean ====
section
/-! SUPPORT. What the sequencer can do in BUSY, said once (40_sequencer R402 to R413), and what the scripts are
(R403). -/

namespace Sys2Proof.Machine

/-! ### Effects keep what they do not name -/

section effect
variable (op : MicroOp) (r : BusResponse) (s : State)

@[simp] theorem MicroOp.effect_phase : (op.effect r s).phase = s.phase := by cases op <;> rfl
@[simp] theorem MicroOp.effect_upc : (op.effect r s).upc = s.upc := by cases op <;> rfl
@[simp] theorem MicroOp.effect_cmd : (op.effect r s).cmd = s.cmd := by cases op <;> rfl
@[simp] theorem MicroOp.effect_script : (op.effect r s).script = s.script := by cases op <;> rfl
@[simp] theorem MicroOp.effect_p : (op.effect r s).p = s.p := by cases op <;> rfl
@[simp] theorem MicroOp.effect_rspValid : (op.effect r s).rspValid = s.rspValid := by cases op <;> rfl
@[simp] theorem MicroOp.effect_rspStatus : (op.effect r s).rspStatus = s.rspStatus := by cases op <;> rfl
@[simp] theorem MicroOp.effect_rspCause : (op.effect r s).rspCause = s.rspCause := by cases op <;> rfl
@[simp] theorem MicroOp.effect_params : (op.effect r s).params = s.params := by cases op <;> rfl
@[simp] theorem MicroOp.effect_cmds : (op.effect r s).cmds = s.cmds := by cases op <;> rfl
@[simp] theorem MicroOp.effect_rst : (op.effect r s).rst = s.rst := by cases op <;> rfl
@[simp] theorem MicroOp.effect_env : (op.effect r s).env = s.env := by cases op <;> rfl

@[simp] theorem MicroOp.effect_rd_w : (MicroOp.rd.effect r s).w = r.byte := rfl
@[simp] theorem MicroOp.effect_rd_wFresh : (MicroOp.rd.effect r s).wFresh = true := rfl
@[simp] theorem MicroOp.effect_bopen_chan (path : Token) : ((MicroOp.bopen path).effect r s).chan = r.chan := rfl
@[simp] theorem MicroOp.effect_bbind_bound (a : BitVec 7) : ((MicroOp.bbind a).effect r s).bound = true := rfl
@[simp] theorem MicroOp.effect_bclose_bound : (MicroOp.bclose.effect r s).bound = false := rfl
@[simp] theorem MicroOp.effect_bclose_rspClose : (MicroOp.bclose.effect r s).rspClose = r.status := rfl
@[simp] theorem MicroOp.effect_rd_bound : (MicroOp.rd.effect r s).bound = s.bound := rfl
@[simp] theorem MicroOp.effect_rd_chan : (MicroOp.rd.effect r s).chan = s.chan := rfl
@[simp] theorem MicroOp.effect_rd_rspClose : (MicroOp.rd.effect r s).rspClose = s.rspClose := rfl
@[simp] theorem MicroOp.effect_bopen_rspClose (path : Token) :
    ((MicroOp.bopen path).effect r s).rspClose = s.rspClose := rfl
@[simp] theorem MicroOp.effect_bbind_rspClose (a : BitVec 7) :
    ((MicroOp.bbind a).effect r s).rspClose = s.rspClose := rfl
@[simp] theorem MicroOp.effect_bopen_bound (path : Token) : ((MicroOp.bopen path).effect r s).bound = s.bound := rfl
@[simp] theorem MicroOp.effect_bopen_w (path : Token) : ((MicroOp.bopen path).effect r s).w = s.w := rfl
@[simp] theorem MicroOp.effect_bopen_wFresh (path : Token) :
    ((MicroOp.bopen path).effect r s).wFresh = s.wFresh := rfl
@[simp] theorem MicroOp.effect_bbind_chan (a : BitVec 7) : ((MicroOp.bbind a).effect r s).chan = s.chan := rfl
@[simp] theorem MicroOp.effect_bbind_w (a : BitVec 7) : ((MicroOp.bbind a).effect r s).w = s.w := rfl
@[simp] theorem MicroOp.effect_bbind_wFresh (a : BitVec 7) :
    ((MicroOp.bbind a).effect r s).wFresh = s.wFresh := rfl
@[simp] theorem MicroOp.effect_bclose_chan : (MicroOp.bclose.effect r s).chan = s.chan := rfl
@[simp] theorem MicroOp.effect_bclose_w : (MicroOp.bclose.effect r s).w = s.w := rfl
@[simp] theorem MicroOp.effect_bclose_wFresh : (MicroOp.bclose.effect r s).wFresh = s.wFresh := rfl
@[simp] theorem MicroOp.effect_ptr (a : Byte) : (MicroOp.ptr a).effect r s = s := rfl
@[simp] theorem MicroOp.effect_wk (a : Byte) (v : KValue) : (MicroOp.wk a v).effect r s = s := rfl
@[simp] theorem MicroOp.effect_wb (a : Byte) (f : WorkFn) : (MicroOp.wb a f).effect r s = s := rfl
@[simp] theorem MicroOp.effect_w5 (a b0 b1 b2 b3 : Byte) : (MicroOp.w5 a b0 b1 b2 b3).effect r s = s := rfl

@[simp] theorem MicroOp.spoil_phase : (op.spoil s).phase = s.phase := by cases op <;> rfl
@[simp] theorem MicroOp.spoil_bound : (op.spoil s).bound = s.bound := by cases op <;> rfl
@[simp] theorem MicroOp.spoil_upc : (op.spoil s).upc = s.upc := by cases op <;> rfl
@[simp] theorem MicroOp.spoil_cmd : (op.spoil s).cmd = s.cmd := by cases op <;> rfl
@[simp] theorem MicroOp.spoil_script : (op.spoil s).script = s.script := by cases op <;> rfl
@[simp] theorem MicroOp.spoil_w : (op.spoil s).w = s.w := by cases op <;> rfl
@[simp] theorem MicroOp.spoil_p : (op.spoil s).p = s.p := by cases op <;> rfl
@[simp] theorem MicroOp.spoil_params : (op.spoil s).params = s.params := by cases op <;> rfl
@[simp] theorem MicroOp.spoil_cmds : (op.spoil s).cmds = s.cmds := by cases op <;> rfl
@[simp] theorem MicroOp.spoil_rst : (op.spoil s).rst = s.rst := by cases op <;> rfl
@[simp] theorem MicroOp.spoil_env : (op.spoil s).env = s.env := by cases op <;> rfl

@[simp] theorem State.complete_phase : (s.complete op).phase = .idle := by cases op <;> rfl
@[simp] theorem State.complete_bound : (s.complete op).bound = s.bound := by cases op <;> rfl
@[simp] theorem State.complete_chan : (s.complete op).chan = s.chan := by cases op <;> rfl
@[simp] theorem State.complete_upc : (s.complete op).upc = s.upc := by cases op <;> rfl
@[simp] theorem State.complete_cmd : (s.complete op).cmd = s.cmd := by cases op <;> rfl
@[simp] theorem State.complete_script : (s.complete op).script = s.script := by cases op <;> rfl
@[simp] theorem State.complete_w : (s.complete op).w = s.w := by cases op <;> rfl
@[simp] theorem State.complete_p : (s.complete op).p = s.p := by cases op <;> rfl
@[simp] theorem State.complete_rspValid : (s.complete op).rspValid = true := by cases op <;> rfl
@[simp] theorem State.complete_rspStatus : (s.complete op).rspStatus = .ok := by cases op <;> rfl
@[simp] theorem State.complete_rspCause : (s.complete op).rspCause = .none := by cases op <;> rfl
@[simp] theorem State.complete_params : (s.complete op).params = s.params := by cases op <;> rfl
@[simp] theorem State.complete_cmds : (s.complete op).cmds = s.cmds := by cases op <;> rfl
@[simp] theorem State.complete_rst : (s.complete op).rst = s.rst := by cases op <;> rfl
@[simp] theorem State.complete_env : (s.complete op).env = s.env := by cases op <;> rfl

end effect

/-! ### Going on after a micro-operation -/

/-- Not the last micro-operation: `upc` moves on and nothing else changes. -/
theorem State.advance_inner {s : State} {op : MicroOp} (h : s.upc + 1 ≠ s.script.length) :
    s.advance op = s.withUpc (s.upc + 1) := if_neg h

/-- The last micro-operation: the command completes. -/
theorem State.advance_last {s : State} {op : MicroOp} (h : s.upc + 1 = s.script.length) :
    s.advance op = (s.withUpc (s.upc + 1)).complete op := if_pos h

/-- Everything the sequencer can do in one step: fault on an exhausted script, fault on an unwritten working byte,
wait, or finish a micro-operation with the bus's answer. -/
theorem runMicroOp_cases (s : State) :
    (s.script[s.upc]? = none ∧ runMicroOp s = .fault .scriptExhausted) ∨
    (∃ op, s.script[s.upc]? = some op ∧ op.readsW = true ∧ s.wFresh = false ∧
      runMicroOp s = .fault .workingByteUnwritten) ∨
    (∃ op, s.script[s.upc]? = some op ∧ (op.readsW = true → s.wFresh = true) ∧
      s.env.answer s.params (op.request s) = none ∧ runMicroOp s = .next s) ∨
    (∃ op r e, s.script[s.upc]? = some op ∧ (op.readsW = true → s.wFresh = true) ∧
      s.env.answer s.params (op.request s) = some (r, e) ∧
      runMicroOp s = .next (op.finish r (s.withEnv e))) := by
  unfold runMicroOp
  split
  · next h => exact .inl ⟨h, rfl⟩
  · next op h =>
    split
    · next hw =>
      simp only [Bool.and_eq_true, Bool.not_eq_true'] at hw
      exact .inr (.inl ⟨op, h, hw.1, hw.2, rfl⟩)
    · next hw =>
      have hw' : op.readsW = true → s.wFresh = true := by
        intro h1; by_contra h2; simp [h1, h2] at hw
      split
      · next ha => exact .inr (.inr (.inl ⟨op, h, hw', ha, rfl⟩))
      · next r e ha => exact .inr (.inr (.inr ⟨op, r, e, h, hw', ha, rfl⟩))

/-- An answered micro-operation finishes. -/
theorem runMicroOp_answered {s : State} {op : MicroOp} {r : BusResponse} {e : Env}
    (h : s.script[s.upc]? = some op) (hw : op.readsW = true → s.wFresh = true)
    (ha : s.env.answer s.params (op.request s) = some (r, e)) :
    runMicroOp s = .next (op.finish r (s.withEnv e)) := by
  obtain ⟨h', _⟩ | ⟨op', h', h1, h2, _⟩ | ⟨op', h', _, ha', _⟩ | ⟨op', r', e', h', _, ha', hr⟩ := runMicroOp_cases s
  · rw [h] at h'; cases h'
  · rw [h] at h'; cases h'; rw [hw h1] at h2; cases h2
  · rw [h] at h'; cases h'; rw [ha] at ha'; cases ha'
  · rw [h] at h'; cases h'; rw [ha] at ha'; cases ha'; exact hr

/-- The outcome of an answered micro-operation. -/
theorem MicroOp.finish_success {op : MicroOp} {r : BusResponse} {s : State} (h : op.succeeds r = true) :
    op.finish r s = (op.effect r s).advance op := if_pos h

theorem MicroOp.finish_failure {op : MicroOp} {r : BusResponse} {s : State} (h : op.succeeds r = false) :
    op.finish r s = (op.spoil s).raise op.failCause := if_neg (by simp [h])

/-! ### The scripts, written out -/

theorem scriptRmw1_of_ne {p : Params} {req : BitVec 16} (h : req ≠ 0) :
    scriptRmw1 p req = [.ptr p.regMode1, .rd, .wb p.regMode1 (.m1 req)] := if_neg h

theorem scriptRmw2_of_ne {p : Params} {req : BitVec 8} (h : req ≠ 0) :
    scriptRmw2 p req = [.ptr p.regMode2, .rd, .wb p.regMode2 (.m2 req)] := if_neg h

@[simp] theorem scriptRmw1_zero (p : Params) : scriptRmw1 p 0 = scriptEmpty p p.regMode1 := rfl

@[simp] theorem scriptRmw2_zero (p : Params) : scriptRmw2 p 0 = scriptEmpty p p.regMode2 := rfl

theorem scriptSf_eq (p : Params) : scriptSf p =
    [.ptr p.regMode1, .rd, .wb p.regMode1 (.m1 (req1SleepSetup p)),
     .wk p.regPreScale .prescale,
     .ptr p.regMode1, .rd, .wb p.regMode1 (.m1 (req1Wake p)),
     .ptr p.regMode2, .rd, .wb p.regMode2 (.m2 req2Freq)] := by
  rw [scriptSf, scriptRmw1_of_ne (req1SleepSetup_ne_zero p), scriptRmw1_of_ne (req1Wake_ne_zero p),
    scriptRmw2_of_ne (by decide)]
  rfl

theorem scriptEmpty_cases (p : Params) (a : Byte) :
    scriptEmpty p a = [.ptr a] ∨ scriptEmpty p a = [.wk a (.const 0x00)] := by
  unfold scriptEmpty; split <;> simp

end Sys2Proof.Machine
end

