-- ==== Sys2Proof/Laws/Step.lean ====
section
/-! SUPPORT. What one acceptance and one step can do, said once; provers cite these instead of unfolding exec and
step. -/

namespace Sys2Proof.Machine

/-! ### Acceptance -/

@[simp] theorem State.ifBound_true {s go : State} (h : s.bound = true) : s.ifBound go = go := if_pos h

@[simp] theorem State.ifBound_false {s go : State} (h : s.bound = false) : s.ifBound go = s.raise .notBound :=
  if_neg (by simp [h])

/-- The state in which a command that passed its pre-checks is left by its acceptance. -/
def State.accepted (s : State) (i : Instr) : State :=
  (s.loadPrescale ((neededPrescale s.params i).getD s.p)).start (scriptOf s.params i)

@[simp] theorem State.loadPrescale_self (s : State) : s.loadPrescale s.p = s := rfl

/-- Everything the acceptance of a command does: the first pre-check that applies, or the script started. -/
theorem exec_eq (i : Instr) (s : State) :
    exec i s = .next
      (match preCheck s.params s.bound i with
        | some c => s.raise c
        | none => s.accepted i) := by
  cases i with
  | openDevice path addr7 =>
    cases hb : s.bound <;>
      simp [exec, execOpen, preCheck, Instr.wellFormed, hb, State.accepted, neededPrescale, scriptOf]
  | closeDevice =>
    cases hb : s.bound <;>
      simp [exec, execClose, preCheck, Instr.wellFormed, hb, State.accepted, neededPrescale, scriptOf]
  | applyMode1 req16 =>
    cases hb : s.bound <;> cases hl : req1Legal s.params req16 <;>
      simp [exec, execApplyMode1, preCheck, Instr.wellFormed, hb, hl, State.accepted, neededPrescale, scriptOf]
  | applyMode2 req8 =>
    cases hb : s.bound <;> cases hl : (Instr.applyMode2 req8).wellFormed <;>
      simp [exec, execApplyMode2, preCheck, hb, hl, State.accepted, neededPrescale, scriptOf]
  | setFrequency freq =>
    cases hb : s.bound
    · simp [exec, execSetFrequency, preCheck, Instr.wellFormed, hb]
    · by_cases hl : freq = 0
      · simp [exec, execSetFrequency, preCheck, Instr.wellFormed, hb, hl]
      · have hc : preCheck s.params true (.setFrequency freq) = none := by
          simpa [preCheck, Instr.wellFormed] using hl
        simp only [hc, exec, execSetFrequency, State.ifBound_true hb, if_neg hl]
        rfl
  | setChannel id on off =>
    cases hb : s.bound <;>
      simp [exec, execSetChannel, preCheck, Instr.wellFormed, hb, State.accepted, neededPrescale, scriptOf]

/-- A pre-check's cause is one of R601's codes 3 to 6. -/
theorem preCheck_mem {p : Params} {bound : Bool} {i : Instr} {c : Cause} (h : preCheck p bound i = some c) :
    c ∈ preCheckCauses := by
  unfold preCheck at h
  cases i <;> simp only at h <;> (repeat' split at h) <;> simp_all [preCheckCauses]

@[simp] theorem State.accepted_phase (s : State) (i : Instr) : (s.accepted i).phase = .busy := rfl
@[simp] theorem State.accepted_bound (s : State) (i : Instr) : (s.accepted i).bound = s.bound := rfl
@[simp] theorem State.accepted_chan (s : State) (i : Instr) : (s.accepted i).chan = s.chan := rfl
@[simp] theorem State.accepted_upc (s : State) (i : Instr) : (s.accepted i).upc = 0 := rfl
@[simp] theorem State.accepted_cmd (s : State) (i : Instr) : (s.accepted i).cmd = s.cmd := rfl
@[simp] theorem State.accepted_script (s : State) (i : Instr) :
    (s.accepted i).script = scriptOf s.params i := rfl
@[simp] theorem State.accepted_w (s : State) (i : Instr) : (s.accepted i).w = s.w := rfl
@[simp] theorem State.accepted_wFresh (s : State) (i : Instr) : (s.accepted i).wFresh = false := rfl
@[simp] theorem State.accepted_p (s : State) (i : Instr) :
    (s.accepted i).p = (neededPrescale s.params i).getD s.p := rfl
@[simp] theorem State.accepted_rspValid (s : State) (i : Instr) : (s.accepted i).rspValid = s.rspValid := rfl
@[simp] theorem State.accepted_rspStatus (s : State) (i : Instr) : (s.accepted i).rspStatus = s.rspStatus := rfl
@[simp] theorem State.accepted_rspCause (s : State) (i : Instr) : (s.accepted i).rspCause = s.rspCause := rfl
@[simp] theorem State.accepted_rspClose (s : State) (i : Instr) : (s.accepted i).rspClose = s.rspClose := rfl
@[simp] theorem State.accepted_free (s : State) (i : Instr) : (s.accepted i).free = s.free := rfl
@[simp] theorem State.accepted_params (s : State) (i : Instr) : (s.accepted i).params = s.params := rfl
@[simp] theorem State.accepted_cmds (s : State) (i : Instr) : (s.accepted i).cmds = s.cmds := rfl
@[simp] theorem State.accepted_rst (s : State) (i : Instr) : (s.accepted i).rst = s.rst := rfl
@[simp] theorem State.accepted_env (s : State) (i : Instr) : (s.accepted i).env = s.env := rfl

@[simp] theorem State.raise_respondsFail (s : State) (c : Cause) : (s.raise c).RespondsFail c :=
  ⟨rfl, rfl, rfl, rfl⟩

@[simp] theorem State.complete_respondsOk (s : State) (op : MicroOp) : (s.complete op).RespondsOk := by
  cases op <;> exact ⟨rfl, rfl, rfl, rfl⟩

/-! ### The word taken from the command port -/

theorem acceptWord_ok {word : CmdWord} {i : Instr} {s : State} (h : decode word = .ok i) :
    acceptWord word s = exec i s := by simp [acceptWord, h]

theorem acceptWord_error {word : CmdWord} {e : DecodeError} {s : State} (h : decode word = .error e) :
    acceptWord word s = .next (s.raise .illegalCommand) := by
  cases e <;> simp [acceptWord, h]

/-! ### One step -/

theorem step_reset {s : State} (h : s.rst = true) : step s = .next s.blockReset := if_pos h

theorem step_idle {s : State} (hr : s.rst = false) (hp : s.phase = .idle) : step s = acceptCommand s := by
  simp [step, hr, hp]

theorem step_busy {s : State} (hr : s.rst = false) (hp : s.phase = .busy) : step s = runMicroOp s := by
  simp [step, hr, hp]

/-- One step of an executing command that the bus answers. -/
theorem step_answered {s : State} {op : MicroOp} {r : BusResponse} {e : Env} (hr : s.rst = false)
    (hp : s.phase = .busy) (h : s.script[s.upc]? = some op) (hw : op.readsW = true → s.wFresh = true)
    (ha : s.env.answer s.params (op.request s) = some (r, e)) :
    step s = .next (op.finish r (s.withEnv e)) := by
  rw [step_busy hr hp, runMicroOp_answered h hw ha]

/-- One successful micro-operation that is not the script's last. -/
theorem step_inner {s : State} {op : MicroOp} {r : BusResponse} {e : Env} (hr : s.rst = false)
    (hp : s.phase = .busy) (h : s.script[s.upc]? = some op) (hw : op.readsW = true → s.wFresh = true)
    (ha : s.env.answer s.params (op.request s) = some (r, e)) (hs : op.succeeds r = true)
    (hl : s.upc + 1 ≠ s.script.length) :
    step s = .next ((op.effect r (s.withEnv e)).withUpc (s.upc + 1)) := by
  rw [step_answered hr hp h hw ha, MicroOp.finish_success hs, State.advance_inner (by simpa using hl)]
  simp

/-- The successful last micro-operation of a script completes the command. -/
theorem step_last {s : State} {op : MicroOp} {r : BusResponse} {e : Env} (hr : s.rst = false)
    (hp : s.phase = .busy) (h : s.script[s.upc]? = some op) (hw : op.readsW = true → s.wFresh = true)
    (ha : s.env.answer s.params (op.request s) = some (r, e)) (hs : op.succeeds r = true)
    (hl : s.upc + 1 = s.script.length) :
    step s = .next (((op.effect r (s.withEnv e)).withUpc (s.upc + 1)).complete op) := by
  rw [step_answered hr hp h hw ha, MicroOp.finish_success hs, State.advance_last (by simpa using hl)]
  simp

/-- A failed micro-operation ends the command. -/
theorem step_fails {s : State} {op : MicroOp} {r : BusResponse} {e : Env} (hr : s.rst = false)
    (hp : s.phase = .busy) (h : s.script[s.upc]? = some op) (hw : op.readsW = true → s.wFresh = true)
    (ha : s.env.answer s.params (op.request s) = some (r, e)) (hs : op.succeeds r = false) :
    step s = .next ((op.spoil (s.withEnv e)).raise op.failCause) := by
  rw [step_answered hr hp h hw ha, MicroOp.finish_failure hs]

/-- Everything one step can do when it answers a next state. -/
theorem step_cases {s t : State} (h : step s = .next t) :
    (s.rst = true ∧ t = s.blockReset) ∨
    (s.rst = false ∧ s.phase = .idle ∧ s.cmds = [] ∧ t = s) ∨
    (s.rst = false ∧ s.phase = .idle ∧ ∃ word rest e, s.cmds = word :: rest ∧ decode word = .error e ∧
      t = (s.latch word rest).raise .illegalCommand) ∨
    (s.rst = false ∧ s.phase = .idle ∧ ∃ word rest i, s.cmds = word :: rest ∧ decode word = .ok i ∧
      exec i (s.latch word rest) = .next t) ∨
    (s.rst = false ∧ s.phase = .busy ∧ ∃ op, s.script[s.upc]? = some op ∧
      s.env.answer s.params (op.request s) = none ∧ t = s) ∨
    (s.rst = false ∧ s.phase = .busy ∧ ∃ op r e, s.script[s.upc]? = some op ∧
      (op.readsW = true → s.wFresh = true) ∧ s.env.answer s.params (op.request s) = some (r, e) ∧
      t = op.finish r (s.withEnv e)) := by
  rcases Bool.eq_false_or_eq_true s.rst with hr | hr
  · rw [step_reset hr] at h; cases h; exact .inl ⟨hr, rfl⟩
  · right
    rcases (by cases s.phase <;> simp : s.phase = .idle ∨ s.phase = .busy) with hp | hp
    · rw [step_idle hr hp, acceptCommand] at h
      split at h
      · next hc => cases h; exact .inl ⟨hr, hp, hc, rfl⟩
      · next word rest hc =>
        cases hd : decode word with
        | ok i =>
          rw [acceptWord_ok hd] at h
          exact .inr (.inr (.inl ⟨hr, hp, word, rest, i, hc, hd, h⟩))
        | error e =>
          rw [acceptWord_error hd] at h; cases h
          exact .inr (.inl ⟨hr, hp, word, rest, e, hc, hd, rfl⟩)
    · rw [step_busy hr hp] at h
      obtain ⟨_, h'⟩ | ⟨_, _, _, _, h'⟩ | ⟨op, ho, _, ha, h'⟩ | ⟨op, r, e, ho, hw, ha, h'⟩ := runMicroOp_cases s
      · rw [h] at h'; cases h'
      · rw [h] at h'; cases h'
      · rw [h] at h'; cases h'
        exact .inr (.inr (.inr (.inl ⟨hr, hp, op, ho, ha, rfl⟩)))
      · rw [h] at h'; cases h'
        exact .inr (.inr (.inr (.inr ⟨hr, hp, op, r, e, ho, hw, ha, rfl⟩)))

/-! ### Several steps -/

@[simp] theorem runSteps_zero (s : State) : runSteps 0 s = .next s := rfl

theorem runSteps_succ {n : Nat} {s t : State} (h : step s = .next t) : runSteps (n + 1) s = runSteps n t := by
  simp [runSteps, h]

/-- To show that a run ends in a state with a property, one step at a time. -/
theorem runSteps_exists_succ {n : Nat} {s t : State} {P : State → Prop} (h : step s = .next t)
    (ht : ∃ u, runSteps n t = .next u ∧ P u) : ∃ u, runSteps (n + 1) s = .next u ∧ P u := by
  rw [runSteps_succ h]; exact ht

theorem runSteps_exists_zero {s : State} {P : State → Prop} (h : P s) : ∃ u, runSteps 0 s = .next u ∧ P u :=
  ⟨s, rfl, h⟩

theorem runSteps_add {m n : Nat} {s t : State} (h : runSteps m s = .next t) :
    runSteps (m + n) s = runSteps n t := by
  induction m generalizing s with
  | zero => cases h; rw [Nat.zero_add]
  | succ m ih =>
    rw [Nat.succ_add]
    simp only [runSteps] at h ⊢
    split at h
    · exact ih h
    · cases h
    · cases h

/-- A read-modify-write inside a script: pointer write, read, write-back, all answered in full. -/
theorem runSteps_rmw {s : State} {a : Byte} {f : WorkFn} {r1 r2 r3 : BusResponse} {e1 e2 e3 : Env}
    (hr : s.rst = false) (hp : s.phase = .busy) (h1 : s.script[s.upc]? = some (.ptr a))
    (h2 : s.script[s.upc + 1]? = some .rd) (h3 : s.script[s.upc + 2]? = some (.wb a f))
    (a1 : s.env.answer s.params (.busWrite s.chan [a]) = some (r1, e1))
    (a2 : e1.answer s.params (.busRead s.chan 1) = some (r2, e2))
    (a3 : e2.answer s.params (.busWrite s.chan [a, applyWork s.params f r2.byte]) = some (r3, e3))
    (c1 : r1.count = 1) (c2 : r2.count = 1) (c3 : r3.count = 2) :
    runSteps 3 s = .next
      (State.advance { s with w := r2.byte, wFresh := true, env := e3, upc := s.upc + 2 } (.wb a f)) := by
  have l3 : s.upc + 2 < s.script.length := (List.getElem?_eq_some_iff.1 h3).1
  refine (runSteps_succ (t := (s.withEnv e1).withUpc (s.upc + 1)) (step_inner (op := .ptr a) hr hp h1
    (by simp [MicroOp.readsW]) a1 (by simp [MicroOp.succeeds, c1]) (by omega))).trans ?_
  refine (runSteps_succ
    (t := (MicroOp.rd.effect r2 (((s.withEnv e1).withUpc (s.upc + 1)).withEnv e2)).withUpc (s.upc + 2))
    (step_inner (op := .rd) hr hp h2 (by simp [MicroOp.readsW]) a2 (by simp [MicroOp.succeeds, c2])
      (by simpa using by omega))).trans ?_
  refine (runSteps_succ (step_answered
    (s := (MicroOp.rd.effect r2 (((s.withEnv e1).withUpc (s.upc + 1)).withEnv e2)).withUpc (s.upc + 2))
    (op := .wb a f) (e := e3) hr hp h3 (fun _ => rfl) a3)).trans ?_
  rw [MicroOp.finish_success (by simp [MicroOp.succeeds, c3])]
  rfl

end Sys2Proof.Machine
end

