-- ==== Sys2Proof/Tests/Slice0.lean ====
section
/-! SUPPORT. Tests of the model against the spec's own words, examples and vectors (95_test_vectors, 30_encoding), and
one witness for every statement's hypotheses. Expected values are the spec's. -/

namespace Sys2Proof.Tests

open Sys2Proof.Machine

/-! ### Small states -/

/-- A bus that gives these answers and then no more. -/
def bus (rs : List BusResponse) : Env := { source := .answers rs, log := [], txns := 0 }

/-- A byte count, and a byte, as the bus answers them. -/
def counted (n : Int) : BusResponse := { count := n }
def readByte (b : Byte) : BusResponse := { count := 1, byte := b }

/-- An idle block before OPEN, and after it, on a bus with these answers. -/
def unboundOn (rs : List BusResponse) : State := { State.reset with env := bus rs }
def boundOn (rs : List BusResponse) : State := { State.reset with bound := true, chan := 1, env := bus rs }

/-- A bound, idle block in front of the double. -/
def boundDouble (d : Double) : State :=
  { State.reset with bound := true, chan := 1, env := { source := .double d, log := [], txns := 0 } }

/-- A block at micro-operation `upc` of the script of a command. -/
def at_ (i : Instr) (upc : Nat) (s : State) : State :=
  { s with cmd := encode i, script := scriptOf s.params i, phase := .busy, upc := upc }

/-- The double at the end of program P1's OPEN: MODE1 0x20, MODE2 0x00, PRE_SCALE 0x79. -/
def opened : Double := { Double.powerOn with regs := [(0x00, 0x20), (0x01, 0x00), (0xFE, 0x79)], ptr := 0x01 }

/-! ### Well-formedness (30_encoding R309: "req8[7:6] reserved, must be 0") -/

theorem test_wellFormed_refuses_req8_bit6 : ¬ (Instr.applyMode2 0x40).WellFormed := by decide
theorem test_wellFormed_refuses_req8_bit7 : ¬ (Instr.applyMode2 0x80).WellFormed := by decide
theorem test_wellFormed_accepts_every_defined_bit : (Instr.applyMode2 0x3F).WellFormed := by decide

/-! ### Decoding: words written out bit by bit from the fields of 30_encoding R302 (V-E) -/

/-- OPEN: path = 1 in [63:32], zero [31:15], addr7 = 0x40 in [14:8], zero [7:3], op 000. -/
theorem test_decode_open :
    decode (0b00000000000000000000000000000001_00000000000000000_1000000_00000_000 : CmdWord) =
      .ok (.openDevice 1 0x40) := by decide

/-- CLOSE: zero [63:3], op 001. -/
theorem test_decode_close : decode (0b001 : CmdWord) = .ok .closeDevice := by decide

/-- APPLY_MODE1: zero [63:32], req16 = 0x0502 in [31:16], zero [15:3], op 010. -/
theorem test_decode_applyMode1 :
    decode (0b0000010100000010_0000000000000_010 : CmdWord) = .ok (.applyMode1 0x0502) := by decide

/-- APPLY_MODE2: zero [63:24], req8 = 0x25 in [23:16], zero [15:3], op 011. -/
theorem test_decode_applyMode2 :
    decode (0b00100101_0000000000000_011 : CmdWord) = .ok (.applyMode2 0x25) := by decide

/-- SET_FREQUENCY: freq = 50 in [63:32], zero [31:3], op 100. -/
theorem test_decode_setFrequency :
    decode (0b00000000000000000000000000110010_00000000000000000000000000000_100 : CmdWord) =
      .ok (.setFrequency 50) := by decide

/-- SET_CHANNEL: zero [63:48], off = 0 in [47:32], on = 4095 in [31:16], id = 15 in [15:8], zero [7:3], op 101. -/
theorem test_decode_setChannel :
    decode (0b0000000000000000_0000111111111111_00001111_00000_101 : CmdWord) = .ok (.setChannel 15 4095 0) := by
  decide

/-- V-E: the words it calls illegal, one per reserved field. -/
theorem test_decode_illegal :
    decode 0x0000000100008000 = .error .reservedBit ∧ decode 0x0000000100014000 = .error .reservedBit ∧
    decode 0x0000000100000001 = .error .reservedBit ∧ decode 0x0000000000000009 = .error .reservedBit ∧
    decode 0x0000000000000080 = .error .reservedBit ∧ decode 0x000000000000FF02 = .error .reservedBit ∧
    decode 0x0000000100000002 = .error .reservedBit ∧ decode 0x0000000000400003 = .error .reservedBit ∧
    decode 0x0000000000800003 = .error .reservedBit ∧ decode 0x0000000000000104 = .error .reservedBit ∧
    decode 0x0001000000000005 = .error .reservedBit ∧ decode 0x0000000000000006 = .error .reservedOpcode ∧
    decode 0x0000000000000007 = .error .reservedOpcode := by decide

/-- V-E: more legal words. -/
theorem test_decode_corner_words :
    decode 0x0000000100007F00 = .ok (.openDevice 1 0x7F) ∧
    decode 0x0000000000000002 = .ok (.applyMode1 0) ∧
    decode 0x00000000003F0003 = .ok (.applyMode2 0x3F) ∧
    decode 0x0000000000000004 = .ok (.setFrequency 0) ∧
    decode 0xFFFFFFFF00000004 = .ok (.setFrequency 4294967295) ∧
    decode 0x0000FFFFFFFFFF05 = .ok (.setChannel 255 65535 65535) := by decide

/-- V-E, the other way: the words of the spec from the operands. -/
theorem test_encode_words :
    encode (.openDevice 1 0x40) = 0x0000000100004000 ∧ encode .closeDevice = 0x0000000000000001 ∧
    encode (.applyMode1 0x0502) = 0x0000000005020002 ∧ encode (.applyMode2 0x05) = 0x0000000000050003 ∧
    encode (.setFrequency 60) = 0x0000003C00000004 ∧
    encode (.setChannel 1 0x123 0x456) = 0x0000045601230105 := by decide

/-- The table's numbering: bit 0 is the word's bit 0; a shorter row has zeros above. -/
theorem test_decodeTableWord :
    decodeTableWord 64 0x0000080000000005 = some (.setChannel 0 0 2048) ∧
    decodeTableWord 8 0x01 = some .closeDevice ∧ decodeTableWord 64 0x6 = none := by decide

/-! ### Compute functions (V-M1, V-M2, V-F, V-C) -/

theorem test_m1_table :
    m1 .default 0x01 0x8000 = 0x81 ∧ m1 .default 0x00 0xC000 = 0x80 ∧ m1 .default 0x7F 0x4000 = 0xFF ∧
    m1 .default 0x00 0x5555 = 0xFF ∧ m1 .default 0x00 0xAAAA = 0x80 ∧ m1 .default 0xFF 0x2AAA = 0x80 ∧
    m1 .default 0xA5 0x0040 = 0xAD ∧ m1 .default 0xFF 0x0502 = 0xFE ∧ m1 .default 0x11 0x0502 = 0x30 ∧
    m1 .default 0x30 0x0200 = 0x20 ∧ m1 .default 0x60 0x2000 = 0x20 ∧ m1 .default 0x80 0x0100 = 0x90 := by decide

theorem test_m1_constants : req1SleepSetup .default = 0x0502 ∧ req1Wake .default = 0x0200 := by decide

theorem test_m2_source_table :
    m2 .default 0x04 0x01 = 0x04 ∧ m2 .default 0x07 0x02 = 0x05 ∧ m2 .default 0x04 0x03 = 0x06 ∧
    m2 .default 0x04 0x05 = 0x00 ∧ m2 .default 0x00 0x08 = 0x04 ∧ m2 .default 0x00 0x0C = 0x04 ∧
    m2 .default 0x1F 0x04 = 0x1B ∧ m2 .default 0x00 0x10 = 0x10 ∧ m2 .default 0x10 0x20 = 0x10 ∧
    m2 .default 0xE3 0x01 = 0xE0 ∧ m2 .default 0xFF 0x3F = 0xFE := by decide

/-- R8's defaults with the other polarity. -/
def corrected : Params := { Params.default with oePolarity := .corrected }

theorem test_m2_corrected_table :
    m2 corrected 0x04 0x05 = 0x04 ∧ m2 corrected 0x00 0x08 = 0x00 ∧ m2 corrected 0x00 0x0C = 0x00 ∧
    m2 corrected 0x1F 0x04 = 0x1F ∧ m2 corrected 0xFF 0x3F = 0xFA := by decide

theorem test_prescale_table :
    prescale .default 1 = 214 ∧ prescale .default 23 = 8 ∧ prescale .default 24 = 253 ∧
    prescale .default 40 = 151 ∧ prescale .default 50 = 121 ∧ prescale .default 60 = 100 ∧
    prescale .default 1525 = 3 ∧ prescale .default 1526 = 2 ∧ prescale .default 3052 = 0 ∧
    prescale .default 6104 = 255 ∧ prescale .default 4294967295 = 255 := by decide

theorem test_chanAddr :
    chanAddr .default 0 = 0x06 ∧ chanAddr .default 15 = 0x42 ∧ chanAddr .default 62 = 0xFE ∧
    chanAddr .default 63 = 0x02 ∧ chanAddr .default 64 = 0x06 ∧ chanAddr .default 255 = 0x02 := by decide

/-- The table of 60_exceptions R601. -/
theorem test_response_codes :
    Status.ok.code = 0 ∧ Status.fail.code = 1 ∧
    [Cause.none, .transport, .shortTransfer, .notBound, .alreadyBound, .illegalCommand, .illegalArgument].map
      (·.code) = [0, 1, 2, 3, 4, 5, 6] := by decide

/-! ### Instructions, one step each -/

/-- W8, V-L1: OPEN starts seventeen micro-operations with the prescale of 50 Hz. -/
theorem test_open_starts : ∃ t, exec (.openDevice 1 0x40) State.reset = .next t ∧ t.phase = .busy ∧ t.p = 0x79 ∧
    t.script.length = 17 ∧ t.outstanding = some (.busOpen 1) := ⟨_, rfl, by decide⟩

/-- P7, V-L7: the bind fails, so the block stays unbound and sends nothing more. -/
theorem test_open_bind_fails :
    ∃ t, step (at_ (.openDevice 1 0x40) 1 (unboundOn [{ ok := false }])) = .next t ∧ t.RespondsFail .transport ∧
      t.bound = false ∧ t.outstanding = none := ⟨_, rfl, ⟨rfl, rfl, rfl, rfl⟩, rfl, rfl⟩

/-- V-L3: CLOSE passes the status through. -/
theorem test_close_status :
    ∃ t, step (at_ .closeDevice 0 (boundOn [{ status := 0xFFFFFFFF }])) = .next t ∧ t.RespondsOk ∧
      t.rspClose = 0xFFFFFFFF ∧ t.bound = false := ⟨_, rfl, ⟨rfl, rfl, rfl, rfl⟩, rfl, rfl⟩

/-- V-L9: CLOSE while unbound. -/
theorem test_close_unbound :
    ∃ t, exec .closeDevice State.reset = .next t ∧ t.RespondsFail .notBound := ⟨_, rfl, rfl, rfl, rfl, rfl⟩

/-- V-M1: {SLEEP:ON} writes 0x30 back after 0x20 was read. -/
theorem test_mode1_write_back :
    (at_ (.applyMode1 0x0100) 2 { boundOn [] with w := 0x20 }).outstanding = some (.busWrite 1 [0x00, 0x30]) := by
  decide

/-- V-M1: the write-back answered with count 3 is a short transfer. -/
theorem test_mode1_count_three :
    ∃ t, step (at_ (.applyMode1 0x0100) 2 { boundOn [counted 3] with w := 0x20, wFresh := true }) = .next t ∧
      t.RespondsFail .shortTransfer := ⟨_, rfl, rfl, rfl, rfl, rfl⟩

/-- V-M2: {DRIVER:TP, OE:HZ} writes 0x00 back after 0x04 under SOURCE, 0x04 under CORRECTED. -/
theorem test_mode2_write_back :
    (at_ (.applyMode2 0x05) 2 { boundOn [] with w := 0x04 }).outstanding = some (.busWrite 1 [0x01, 0x00]) ∧
    (at_ (.applyMode2 0x05) 2 { boundOn [] with w := 0x04, params := corrected }).outstanding =
      some (.busWrite 1 [0x01, 0x04]) := by decide

/-- V-M2: PTRRESET2 is one pointer write. -/
theorem test_mode2_empty : (at_ (.applyMode2 0) 0 (boundOn [])).outstanding = some (.busWrite 1 [0x01]) := by decide

/-- W5: the fourth transaction of FREQ 50 is the PRE_SCALE write of 0x79. -/
theorem test_frequency_prescale_write :
    ∃ t, exec (.setFrequency 50) (boundOn []) = .next t ∧
      (t.withUpc 3).outstanding = some (.busWrite 1 [0xFE, 0x79]) := ⟨_, rfl, by decide⟩

/-- V-F: FREQ 0 while unbound fails NOT_BOUND, not ILLEGAL_ARGUMENT. -/
theorem test_frequency_zero_unbound :
    ∃ t, exec (.setFrequency 0) State.reset = .next t ∧ t.RespondsFail .notBound := ⟨_, rfl, rfl, rfl, rfl, rfl⟩

/-- V-C: CHAN 1, 0x123, 0x456. -/
theorem test_channel_bytes :
    (at_ (.setChannel 1 0x123 0x456) 0 (boundOn [])).outstanding =
      some (.busWrite 1 [0x0A, 0x23, 0x01, 0x56, 0x04]) := by decide

/-- V-C: count 4 is a short transfer. -/
theorem test_channel_count_four :
    ∃ t, step (at_ (.setChannel 0 0 2048) 0 (boundOn [counted 4])) = .next t ∧ t.RespondsFail .shortTransfer :=
  ⟨_, rfl, rfl, rfl, rfl, rfl⟩

/-- V-X: encoding before binding. -/
theorem test_illegal_word_unbound :
    ∃ t, step (State.reset.withFetchWord 64 0x6) = .next t ∧ t.RespondsFail .illegalCommand :=
  ⟨_, rfl, rfl, rfl, rfl, rfl⟩

/-- The next step after withFetchWord accepts that word. -/
theorem test_withFetchWord :
    ∃ t, step (State.reset.withFetchWord 64 0x0000000100004000) = .next t ∧ t.phase = .busy ∧
      t.cmd = 0x0000000100004000 := ⟨_, rfl, rfl, rfl⟩

/-! ### The double (V-C, P6; 20_memory R231 to R235) -/

/-- V-C: CHAN 62, 0, 0 from P1's end state wraps past PRE_SCALE into MODE1. -/
theorem test_double_chan62 :
    (opened.write .default [0xFE, 0, 0, 0, 0]).reg 0x00 = 0x00 ∧
    (opened.write .default [0xFE, 0, 0, 0, 0]).reg 0xFE = 0x79 ∧
    (opened.write .default [0xFE, 0, 0, 0, 0]).ptr = 0x00 := by decide

/-- P6: with AI clear all four bytes land in 0x0A. -/
theorem test_double_ai_clear :
    let d := { opened with regs := [(0x00, 0x00), (0x01, 0x00), (0xFE, 0x79)] }.write .default
      [0x0A, 0x23, 0x01, 0x56, 0x04]
    d.reg 0x0A = 0x04 ∧ d.reg 0x0B = 0x00 ∧ d.reg 0x0D = 0x10 ∧ d.ptr = 0x0A := by decide

/-- V-M1: the double clears RESTART on a store to MODE1. -/
theorem test_double_clears_restart : (opened.write .default [0x00, 0xA0]).reg 0x00 = 0x20 := by decide

/-- Power-on contents (95, the double's power-on state). -/
theorem test_double_power_on :
    Double.powerOn.reg 0x00 = 0x11 ∧ Double.powerOn.reg 0x01 = 0x04 ∧ Double.powerOn.reg 0x02 = 0xE2 ∧
    Double.powerOn.reg 0x05 = 0xE0 ∧ Double.powerOn.reg 0x09 = 0x10 ∧ Double.powerOn.reg 0x0A = 0x00 ∧
    Double.powerOn.reg 0x45 = 0x10 ∧ Double.powerOn.reg 0xFE = 0x1E := by decide

/-- Writing what an unlisted address reads as removes the entry. -/
theorem test_memory_canonical : Memory.put [(0x00, 0x20)] 0x00 0x11 = [] ∧ Memory.wf opened.regs = true := by decide

/-! ### The assembler (30_encoding R313, R314) -/

/-- R314: the pseudo-commands' words. -/
theorem test_pseudo_words :
    (assemble .default (.pseudo .ptrReset1)).map encode = some 0x0000000000000002 ∧
    (assemble .default (.pseudo .ptrReset2)).map encode = some 0x0000000000000003 ∧
    (assemble .default (.pseudo .sleep)).map encode = some 0x0000000001000002 ∧
    (assemble .default (.pseudo .wake)).map encode = some 0x0000000002000002 ∧
    (assemble .default (.pseudo .restart)).map encode = some 0x0000000040000002 := by decide

/-- R313: one flag named twice with different values is an error. -/
theorem test_braced_set_conflict :
    assemble .default (.mode1Set [⟨.ai, true⟩, ⟨.ai, false⟩]) = none := by decide

/-- V-M2: {DRIVER:TP, OE:HZ}. -/
theorem test_braced_mode2 : assemble .default (.mode2Set [.driver .tp, .oeHz]) = some (.applyMode2 0x05) := by decide

/-! ### Witnesses: for every statement with hypotheses, data that meet all of them together -/

/-- OPEN executing at `upc`: unbound before the bind succeeded, bound after it. -/
def opening (upc : Nat) (rs : List BusResponse) : State :=
  at_ (.openDevice 1 0x40) upc
    { State.reset with bound := decide (2 ≤ upc), chan := 1, p := 0x79, wFresh := decide (6 ≤ upc), env := bus rs }

/-- SET_FREQUENCY 50 executing at `upc`. -/
def tuning (upc : Nat) (rs : List BusResponse) : State :=
  at_ (.setFrequency 50) upc { boundOn rs with p := 0x79, wFresh := decide (2 ≤ upc) }

/-- An idle bound block with one word on the command port. -/
def offered (word : CmdWord) : State := { boundOn [] with cmds := [word] }

theorem witness_DecodeOfEncodeIsTheInstruction :
    (Instr.applyMode2 0x3F).WellFormed ∧ (Instr.openDevice 0xFFFFFFFF 0x7F).WellFormed := by decide

theorem witness_EncodeOfDecodeIsTheWord : decode 0x0000FFFFFFFFFF05 = .ok (.setChannel 255 65535 65535) := by decide

theorem witness_WordSelectsRowIffItDecodesToIt :
    rowSetChannel ∈ opcodeTable ∧ (0x0000FFFFFFFFFF05 : CmdWord) &&& rowSetChannel.mask = rowSetChannel.matchBits ∧
      ∀ r ∈ opcodeTable, (0x0001000000000005 : CmdWord) &&& r.mask ≠ r.matchBits := by decide

theorem witness_IllegalWordFailsIllegalCommand :
    (offered 0x6).rst = false ∧ (offered 0x6).phase = .idle ∧ (offered 0x6).cmds = [0x6] ∧ illegalWord 0x6 = true ∧
      illegalWord 0x7 = true ∧ illegalWord 0x8000 = true ∧ illegalWord 0x8000000000000001 = true ∧
      illegalWord 0x0000000100000002 = true ∧ illegalWord 0x0000000000400003 = true ∧
      illegalWord 0x0000000080000004 = true ∧ illegalWord 0x8000000000000005 = true := by decide

theorem witness_StepRunsDecodedCommand :
    (offered 0x1).rst = false ∧ (offered 0x1).phase = .idle ∧ (offered 0x1).cmds = [0x1] ∧
      decode 0x1 = .ok .closeDevice := by decide

theorem witness_NoCommandAcceptedWhileBusy :
    ∃ t, step { tuning 0 [counted 1] with cmds := [0x1] } = .next t ∧ (tuning 0 [counted 1]).rst = false ∧
      (tuning 0 [counted 1]).phase = .busy := ⟨_, rfl, rfl, rfl⟩

theorem witness_StepPerformsOnlyTheOutstandingTransaction :
    ∃ t, step (tuning 0 [counted 1]) = .next t ∧ t.env.blockTxns ≠ (tuning 0 [counted 1]).env.blockTxns :=
  ⟨_, rfl, by decide⟩

theorem witness_ExecutingCommandEndsWithOneResponse :
    (tuning 9 [counted 2]).Inv ∧ (tuning 9 [counted 2]).rst = false ∧ (tuning 9 [counted 2]).phase = .busy ∧
      ∃ t, step (tuning 9 [counted 2]) = .next t ∧ t.phase = .idle := ⟨by decide, rfl, rfl, _, rfl, rfl⟩

/-- One for each clause: an illegal word, an ill-formed request, OPEN bound and unbound, another command unbound, a MODE1 request that
is legal and one that is not, frequency 0 and 1, and the commands with no argument check. -/
theorem witness_PreChecksRunInOrder :
    decode 0x6 = .error .reservedOpcode ∧
      (Instr.applyMode2 0x40).wellFormed = false ∧ (boundOn []).bound = true ∧ (unboundOn []).bound = false ∧
      (Instr.setFrequency 0).WellFormed ∧ req1Legal (boundOn []).params 0xC000 = true ∧
      req1Legal (boundOn []).params 0x3000 = false ∧ (1 : BitVec 32) ≠ 0 ∧ (Instr.applyMode2 0x3F).WellFormed := by
  decide

/-- At both ends of the range of codes: ILLEGAL_ARGUMENT (6) and NOT_BOUND (3). -/
theorem witness_PreCheckFaultChangesOnlyTheResponse :
    ((boundOn []).phase = .idle ∧ (boundOn []).rspValid = false ∧
      ∃ t, exec (.setFrequency 0) (boundOn []) = .next t ∧ t.rspValid = true) ∧
    ((unboundOn []).phase = .idle ∧ (unboundOn []).rspValid = false ∧
      ∃ t, exec .closeDevice (unboundOn []) = .next t ∧ t.rspValid = true) :=
  ⟨⟨rfl, rfl, _, rfl, rfl⟩, rfl, rfl, _, rfl, rfl⟩

/-- One for each clause about `S.p`. -/
theorem witness_AcceptedCommandStartsItsScript :
    (∃ t, exec (.setFrequency 1) (boundOn []) = .next t ∧ t.phase = .busy) ∧
    (∃ t, exec (.openDevice 0 0) (unboundOn []) = .next t ∧ t.phase = .busy) ∧
    (∃ t, exec .closeDevice (boundOn []) = .next t ∧ t.phase = .busy) := ⟨⟨_, rfl, rfl⟩, ⟨_, rfl, rfl⟩, ⟨_, rfl, rfl⟩⟩

theorem witness_BoundSetByOpenAndClearedByCloseOrReset :
    ((opening 1 [{ ok := true }]).Inv ∧ (opening 1 [{ ok := true }]).bound = false ∧
      ∃ t, step (opening 1 [{ ok := true }]) = .next t ∧ t.bound = true) ∧
    ((at_ .closeDevice 0 (boundOn [{}])).Inv ∧ (at_ .closeDevice 0 (boundOn [{}])).bound = true ∧
      ∃ t, step (at_ .closeDevice 0 (boundOn [{}])) = .next t ∧ t.bound = false) ∧
    ((Instr.setChannel 0 0 0).WellFormed ∧ (unboundOn []).bound = false) :=
  ⟨⟨by decide, rfl, _, rfl, rfl⟩, ⟨by decide, rfl, _, rfl, rfl⟩, by decide, rfl⟩

/-- One for each clause, at slots 0, 6 and 7 (RESTART's, with the default parameters). -/
theorem witness_Mode1RequestLegality :
    ((boundOn []).bound = true ∧ (0 : Nat) ≠ (boundOn []).params.m1.restart.val ∧ (0x0003 : BitVec 16).getLsbD 0 = true ∧
      (0x0003 : BitVec 16).getLsbD 1 = true ∧ (6 : Nat) ≠ (boundOn []).params.m1.restart.val ∧
      (0x3000 : BitVec 16).getLsbD 12 = true ∧ (0x3000 : BitVec 16).getLsbD 13 = true) ∧
    (∀ k < 8, k ≠ (boundOn []).params.m1.restart.val →
      ¬ ((0xC000 : BitVec 16).getLsbD (2 * k) = true ∧ (0xC000 : BitVec 16).getLsbD (2 * k + 1) = true)) ∧
    ((0xC000 : BitVec 16).getLsbD (2 * Params.default.m1.restart.val) = true ∧
      (0xC000 : BitVec 16).getLsbD (2 * Params.default.m1.restart.val + 1) = true) ∧
    ((0x3FFF : BitVec 16).getLsbD 14 = false ∧ (0x3FFF : BitVec 16).getLsbD 15 = false) := by decide

/-- One state for each kind of micro-operation. -/
theorem witness_EachMicroOpIssuesItsRequest :
    (tuning 0 []).phase = .busy ∧ (tuning 0 []).script[0]? = some (.ptr 0x00) ∧
    (at_ (.applyMode1 0) 0 { boundOn [] with params := { Params.default with emptyForm := .writeZero } }).script[0]? =
      some (.wk 0x00 (.const 0x00)) ∧
    (tuning 3 []).script[3]? = some (.wk 0xFE .prescale) ∧ (tuning 1 []).script[1]? = some .rd ∧
    (tuning 2 []).script[2]? = some (.wb 0x00 (.m1 0x0502)) ∧ (tuning 9 []).script[9]? = some (.wb 0x01 (.m2 0x05)) ∧
    (at_ (.setChannel 0 0 2048) 0 (boundOn [])).script[0]? = some (.w5 0x06 0x00 0x00 0x00 0x08) ∧
    (opening 0 []).script[0]? = some (.bopen 1) ∧ (opening 1 []).script[1]? = some (.bbind 0x40) ∧
    (at_ .closeDevice 0 (boundOn [])).script[0]? = some .bclose := by decide

/-- A full count on the last micro-operation, one on an earlier one, and a short count. -/
theorem witness_BusWriteSucceedsExactlyOnFullCount :
    ((tuning 9 [counted 2]).rst = false ∧ (tuning 9 [counted 2]).phase = .busy ∧
      (tuning 9 [counted 2]).script[9]? = some (.wb 0x01 (.m2 0x05)) ∧ (tuning 9 [counted 2]).wFresh = true ∧
      (MicroOp.wb 0x01 (.m2 0x05)).request (tuning 9 [counted 2]) = .busWrite 1 [0x01, 0x00] ∧
      (tuning 9 [counted 2]).env.answer .default (.busWrite 1 [0x01, 0x00]) =
        some (counted 2, { bus [] with log := [.block (.busWrite 1 [0x01, 0x00]) (counted 2)], txns := 1 })) ∧
    ((MicroOp.ptr 0x00).request (tuning 0 [counted 1]) = .busWrite 1 [0x00] ∧
      (tuning 0 [counted 1]).env.answer .default (.busWrite 1 [0x00]) ≠ none ∧
      (tuning 0 [counted 0]).env.answer .default (.busWrite 1 [0x00]) ≠ none) := by decide

theorem witness_BusReadSucceedsExactlyOnCountOne :
    (tuning 1 [readByte 0x11]).rst = false ∧ (tuning 1 [readByte 0x11]).phase = .busy ∧
      (tuning 1 [readByte 0x11]).script[1]? = some .rd ∧
      (tuning 1 [readByte 0x11]).env.answer .default (.busRead 1 1) =
        some (readByte 0x11, { bus [] with log := [.block (.busRead 1 1) (readByte 0x11)], txns := 1 }) ∧
      (tuning 1 [counted 0]).env.answer .default (.busRead 1 1) ≠ none ∧
      { tuning 1 [] with script := [.ptr 0x00, .rd] }.upc + 1 = [MicroOp.ptr 0x00, .rd].length ∧
      (tuning 1 []).upc + 1 ≠ (tuning 1 []).script.length := by decide

theorem witness_FailedOpenOrBindIsTransport :
    ((opening 0 [{ ok := true, chan := 7 }]).rst = false ∧ (opening 0 [{ ok := true, chan := 7 }]).phase = .busy ∧
      (opening 0 [{ ok := true, chan := 7 }]).script[0]? = some (.bopen 1) ∧
      (opening 0 [{ ok := true, chan := 7 }]).env.answer .default (.busOpen 1) ≠ none ∧
      (opening 0 [{ ok := false }]).env.answer .default (.busOpen 1) ≠ none) ∧
    ((opening 1 [{ ok := true }]).rst = false ∧ (opening 1 [{ ok := true }]).phase = .busy ∧
      (opening 1 [{ ok := true }]).script[1]? = some (.bbind 0x40) ∧
      (opening 1 [{ ok := true }]).env.answer .default (.busBind 1 0x40) ≠ none ∧
      (opening 1 [{ ok := false }]).env.answer .default (.busBind 1 0x40) ≠ none ∧
      { opening 1 [] with script := [.bopen 1, .bbind 0x40] }.upc + 1 = [MicroOp.bopen 1, .bbind 0x40].length ∧
      (opening 1 []).upc + 1 ≠ (opening 1 []).script.length) := by decide

theorem witness_FailingMicroOpAbortsTheCommand :
    (tuning 3 [counted 0]).rst = false ∧ (tuning 3 [counted 0]).phase = .busy ∧
      (tuning 3 [counted 0]).script[3]? = some (.wk 0xFE .prescale) ∧
      (MicroOp.wk 0xFE .prescale).readsW = false ∧
      (tuning 3 [counted 0]).env.answer .default ((MicroOp.wk 0xFE .prescale).request (tuning 3 [counted 0])) =
        some (counted 0, { bus [] with log := [.block (.busWrite 1 [0xFE, 0x79]) (counted 0)], txns := 1 }) ∧
      (MicroOp.wk 0xFE .prescale).succeeds (counted 0) = false := by decide

/-- Steps 1 and 2, and steps 3 and 17, counted from 0. -/
theorem witness_BindingAfterFailedOpen :
    decode (opening 0 []).cmd = .ok (.openDevice 1 0x40) ∧
    ((opening 0 [{ ok := false }]).Inv ∧ ∃ t, step (opening 0 [{ ok := false }]) = .next t ∧ t.phase = .idle ∧
      t.rspStatus = .fail) ∧
    ((opening 1 [{ ok := false }]).Inv ∧ ∃ t, step (opening 1 [{ ok := false }]) = .next t ∧ t.phase = .idle ∧
      t.rspStatus = .fail) ∧
    ((opening 2 [counted 0]).Inv ∧ ∃ t, step (opening 2 [counted 0]) = .next t ∧ t.phase = .idle ∧
      t.rspStatus = .fail) ∧
    ((opening 16 [counted 0]).Inv ∧ ∃ t, step (opening 16 [counted 0]) = .next t ∧ t.phase = .idle ∧
      t.rspStatus = .fail) :=
  ⟨by decide, ⟨by decide, _, rfl, rfl, rfl⟩, ⟨by decide, _, rfl, rfl, rfl⟩, ⟨by decide, _, rfl, rfl, rfl⟩,
    by decide, _, rfl, rfl, rfl⟩

/-- The id and a tick at the top of their ranges; counts 5 and 4. -/
theorem witness_SetChannelWritesItsFiveBytes :
    (boundOn [counted 5]).rst = false ∧ (boundOn [counted 5]).bound = true ∧
      (boundOn [counted 5]).env.answer .default
        (.busWrite 1 [BitVec.ofNat 8 (Params.default.regLed0OnL.toNat + 4 * (255 : BitVec 8).toNat),
          ((0xFFFF : BitVec 16) &&& 0xFF#16).setWidth 8, ((0xFFFF : BitVec 16) >>> 8).setWidth 8,
          ((0 : BitVec 16) &&& 0xFF#16).setWidth 8, ((0 : BitVec 16) >>> 8).setWidth 8]) =
        some (counted 5, { bus [] with log := [.block (.busWrite 1 [0x02, 0xFF, 0xFF, 0x00, 0x00]) (counted 5)],
                                       txns := 1 }) ∧ (counted 4).count ≠ 5 := by decide

/-- Both forms of an empty request. -/
theorem witness_EmptyModeRequestIssuesOneWrite :
    (boundOn [counted 1]).rst = false ∧ (boundOn [counted 1]).bound = true ∧
      (boundOn [counted 1]).env.answer .default (.busWrite 1 (emptyBytes .default 0x00)) ≠ none ∧
      (counted 1).count = (emptyBytes .default 0x00).length ∧
      (boundOn [counted 2]).env.answer { Params.default with emptyForm := .writeZero }
        (.busWrite 1 (emptyBytes { Params.default with emptyForm := .writeZero } 0x01)) ≠ none ∧
      (counted 2).count = (emptyBytes { Params.default with emptyForm := .writeZero } 0x01).length := by decide

/-- The environment after these requests were answered. -/
def after (qs : List BusRequest) (rs : List BusResponse) : Env :=
  { source := .answers [], log := List.zipWith BusEvent.block qs rs, txns := qs.length }

theorem witness_ApplyMode1ReadsModifiesWrites :
    (boundOn [counted 1, readByte 0x20, counted 2]).rst = false ∧
      (boundOn [counted 1, readByte 0x20, counted 2]).bound = true ∧ (0x0100 : BitVec 16) ≠ 0 ∧
      req1Legal .default 0x0100 = true ∧
      (boundOn [counted 1, readByte 0x20, counted 2]).env.answerAll .default
          (mode1Requests .default 1 0x0100 (readByte 0x20).byte) =
        some ([counted 1, readByte 0x20, counted 2],
          after (mode1Requests .default 1 0x0100 0x20) [counted 1, readByte 0x20, counted 2]) := by decide

theorem witness_ApplyMode2ReadsModifiesWrites :
    (boundOn [counted 1, readByte 0x04, counted 2]).rst = false ∧
      (boundOn [counted 1, readByte 0x04, counted 2]).bound = true ∧ (0x05 : BitVec 8) ≠ 0 ∧
      (Instr.applyMode2 0x05).WellFormed ∧
      (boundOn [counted 1, readByte 0x04, counted 2]).env.answerAll .default
          (mode2Requests .default 1 0x05 (readByte 0x04).byte) =
        some ([counted 1, readByte 0x04, counted 2],
          after (mode2Requests .default 1 0x05 0x04) [counted 1, readByte 0x04, counted 2]) := by decide

/-- W5: the answers of FREQ 50 from power-on. -/
def tuneAnswers : List BusResponse :=
  [counted 1, readByte 0x11, counted 2, counted 2, counted 1, readByte 0x30, counted 2, counted 1, readByte 0x04,
    counted 2]

theorem witness_SetFrequencyRunsItsTenTransactions :
    (boundOn tuneAnswers).rst = false ∧ (boundOn tuneAnswers).bound = true ∧ (50 : BitVec 32) ≠ 0 ∧
      (boundOn tuneAnswers).env.answerAll .default (frequencyRequests .default 1 0x79 0x11 0x30 0x04) =
        some (tuneAnswers, after (frequencyRequests .default 1 0x79 0x11 0x30 0x04) tuneAnswers) ∧
      tuneAnswers.map (·.count) = [1, 1, 2, 2, 1, 1, 2, 1, 1, 2] := by decide

/-- P1: the answers of OPEN 1, 0x40 from power-on. -/
def openAnswers : List BusResponse :=
  [{ ok := true, chan := 1 }, { ok := true }, counted 1, counted 1, counted 1, readByte 0x04, counted 2] ++ tuneAnswers

def openRequests : List BusRequest :=
  [.busOpen 1, .busBind 1 0x40, .busWrite 1 (emptyBytes .default 0x00), .busWrite 1 (emptyBytes .default 0x01)] ++
    mode2Requests .default 1 0x01 0x04 ++ frequencyRequests .default 1 0x79 0x11 0x30 0x04

theorem witness_OpenRunsItsSeventeenTransactions :
    (unboundOn openAnswers).rst = false ∧ (unboundOn openAnswers).bound = false ∧
      (unboundOn openAnswers).env.answerAll .default openRequests =
        some (openAnswers, after openRequests openAnswers) ∧ openAnswers.length = 17 ∧
      (counted 1).count = (emptyBytes .default 0x00).length := by decide

theorem witness_ClosePassesStatusThroughAndUnbinds :
    (boundOn [{ status := 0xFFFFFFFF }]).rst = false ∧ (boundOn [{ status := 0xFFFFFFFF }]).bound = true ∧
      (boundOn [{ status := 0xFFFFFFFF }]).env.answer .default (.busClose 1) ≠ none ∧
      (unboundOn []).bound = false := by decide

/-- An executing command with enough answers, and one in front of the double. -/
theorem witness_AnsweredCommandEnds :
    ((tuning 8 [readByte 0, counted 2]).Inv ∧ (tuning 8 [readByte 0, counted 2]).rst = false ∧
      (tuning 8 [readByte 0, counted 2]).phase = .busy ∧
      (tuning 8 [readByte 0, counted 2]).env.source = .answers [readByte 0, counted 2] ∧
      (tuning 8 [readByte 0, counted 2]).script.length - 8 ≤ 2) ∧
    (at_ .closeDevice 0 (boundDouble opened)).Inv ∧
      (at_ .closeDevice 0 (boundDouble opened)).env.source = .double opened := by decide

theorem witness_SilentBusKeepsTheBlockBusy :
    (tuning 2 []).Inv ∧ (tuning 2 []).rst = false ∧ (tuning 2 []).phase = .busy ∧
      (tuning 2 []).env.source = .answers [] := by decide

theorem witness_EveryStepKeepsTheInvariant :
    (tuning 1 [readByte 0x11]).Inv ∧ ∃ t, step (tuning 1 [readByte 0x11]) = .next t ∧ t.phase = .busy :=
  ⟨by decide, _, rfl, rfl⟩

theorem witness_NoStepStopsUnderTheInvariant : (tuning 2 [counted 2]).Inv ∧ (opening 16 [counted 2]).Inv := by decide

/-- One for each clause. -/
theorem witness_WorkingByteWrittenByReadOnly :
    ((tuning 1 [readByte 0x11]).rst = false ∧ ∃ t, step (tuning 1 [readByte 0x11]) = .next t ∧
      t.w ≠ (tuning 1 [readByte 0x11]).w) ∧
    ((tuning 2 []).Inv ∧ (tuning 2 []).phase = .busy ∧ (tuning 2 []).script[2]? = some (.wb 0x00 (.m1 0x0502))) ∧
    ({ tuning 2 [] with wFresh := false }.phase = .busy ∧ { tuning 2 [] with wFresh := false }.wFresh = false) :=
  ⟨⟨rfl, _, rfl, by decide⟩, by decide, by decide⟩

theorem witness_ChanWrittenOnlyByBusOpen :
    (opening 0 [{ ok := true, chan := 7 }]).rst = false ∧
      ∃ t, step (opening 0 [{ ok := true, chan := 7 }]) = .next t ∧ t.chan ≠ (opening 0 []).chan :=
  ⟨rfl, _, rfl, by decide⟩

/-- One for each clause. -/
theorem witness_PrescaleWrittenAtAcceptanceOnly :
    ((offered 0x0000003200000004).rst = false ∧ ∃ t, step (offered 0x0000003200000004) = .next t ∧
      t.p ≠ (offered 0x0000003200000004).p) ∧
    ((tuning 0 []).Inv ∧ (tuning 0 []).phase = .busy ∧ decode (tuning 0 []).cmd = .ok (.setFrequency 50)) ∧
    ((opening 0 []).Inv ∧ (opening 0 []).phase = .busy ∧ decode (opening 0 []).cmd = .ok (.openDevice 1 0x40)) :=
  ⟨⟨rfl, _, rfl, by decide⟩, by decide, by decide⟩

/-- OPEN's last micro-operation, where `upc` reaches 17. -/
theorem witness_UpcAdvancesByOneAndStaysWithinSeventeen :
    (opening 16 [counted 2]).Inv ∧ (opening 16 [counted 2]).rst = false ∧ (opening 16 [counted 2]).phase = .busy ∧
      ∃ t, step (opening 16 [counted 2]) = .next t ∧ t.upc = 17 := ⟨by decide, rfl, rfl, _, rfl, rfl⟩

/-- A bus that answers from a list and the double give the same response to the first request of FREQ 50. -/
theorem witness_BlockSeesTheBusOnlyThroughItsResponse :
    (tuning 0 []).rst = false ∧ (tuning 0 []).outstanding = some (.busWrite 1 [0x00]) ∧
      (bus [counted 1]).answer .default (.busWrite 1 [0x00]) =
        some (counted 1, after [.busWrite 1 [0x00]] [counted 1]) ∧
      (boundDouble opened).env.answer .default (.busWrite 1 [0x00]) =
        some (counted 1, { source := .double { opened with ptr := 0x00 },
                           log := [.block (.busWrite 1 [0x00]) (counted 1)], txns := 1 }) ∧
      ∃ t, step ((tuning 0 []).withEnv (bus [counted 1])) = .next t :=
  ⟨rfl, by decide, by decide, by decide, _, rfl⟩

/-- A reset in BUSY with a response under way, one in IDLE, and one in front of the double. -/
theorem witness_BlockResetUnbindsWithoutTransaction :
    { tuning 2 [counted 2] with rst := true }.rst = true ∧ (tuning 2 [counted 2]).phase = .busy ∧
      (tuning 2 [counted 2]).env.source = .answers [counted 2] ∧
      { boundOn [counted 2] with rst := true }.rst = true ∧ (boundOn [counted 2]).phase = .idle ∧
      { boundDouble opened with rst := true }.env.source = .double opened := by decide

theorem witness_ResetStateIsIdleAndUnbound : { tuning 2 [] with rst := true }.rst = true := rfl

/-- An address of each kind. -/
theorem witness_CommandsReachOnlyFourKindsOfAddress :
    MicroOp.wk 0xFE .prescale ∈ scriptOf .default (.setFrequency 50) ∧ (MicroOp.wk 0xFE .prescale).address = some 0xFE ∧
      MicroOp.ptr 0x01 ∈ scriptOf .default (.applyMode2 0) ∧ (MicroOp.ptr 0x01).address = some 0x01 ∧
      MicroOp.w5 0x42 0 0 0 0 ∈ scriptOf .default (.setChannel 15 0 0) ∧
      (MicroOp.w5 0x42 0 0 0 0).address = some 0x42 := by decide

theorem witness_OnlyLegalWidthsAreIssued :
    (at_ (.setChannel 0 0 0) 0 (boundOn [])).outstanding = some (.busWrite 1 [0x06, 0, 0, 0, 0]) ∧
      (tuning 1 []).outstanding = some (.busRead 1 1) := by decide

theorem witness_WriteBackFollowsPointerAndRead :
    (scriptOf .default (.openDevice 1 0x40))[6]? = some (.wb 0x01 (.m2 0x01)) ∧
      (scriptOf .default (.openDevice 1 0x40))[16]? = some (.wb 0x01 (.m2 0x05)) := by decide

theorem witness_Mode1ComputesEachBit : (7 : Nat) < 8 ∧ (7 : Nat) = Params.default.m1.restart.val ∧ (0 : Nat) < 8 := by
  decide

theorem witness_SetupSleepsAndWakeWakes : Params.default.m1.positions.Nodup := by decide

theorem witness_Mode2DriverFieldAndPreservedBits : Params.default.wf ∧ corrected.wf := by decide

theorem witness_Mode2OutputEnablePolarity : Params.default.wf ∧ corrected.wf := by decide

theorem witness_PrescaleIsTheFloorFormula : (1 : Nat) ≤ 6104 ∧ 1 ≤ Params.default.periodTicks := by decide

theorem witness_PrescaleRangeIsTwentyFourTo1525 : (1 : Nat) ≤ 24 ∧ (24 : Nat) ≤ 1525 := by decide

/-- The ends of the two ranges. -/
theorem witness_ChannelAddressIsBasePlusFourId :
    (15 : BitVec 8).toNat ≤ 15 ∧ 16 ≤ (16 : BitVec 8).toNat ∧ (60 : BitVec 8).toNat ≤ 60 := by decide

theorem witness_PointerIdiomReadsTheRegister : (0 : Nat) ∉ opened.inject ∧ (1 : Nat) ∉ opened.inject := by decide

/-- A double with AI set and one with AI clear, and an address four below PRE_SCALE. -/
theorem witness_FourByteWriteFollowsAutoIncrement :
    Memory.wf opened.regs = true ∧ opened.autoIncrement .default = true ∧
      Double.powerOn.autoIncrement .default = false ∧
      ∀ k < 4, (0xFA : Byte) + BitVec.ofNat 8 k ≠ Params.default.regMode1 ∧
        (0xFA : Byte) + BitVec.ofNat 8 k ≠ Params.default.regPreScale := by decide

theorem witness_ModeCommandsAndCloseStoreOnlyTheirRegister :
    (boundDouble opened).rst = false ∧ (boundDouble opened).bound = true ∧ (boundDouble opened).params.wf ∧
      (boundDouble opened).env.source = .double opened ∧ opened.Calm ∧ Memory.wf opened.regs = true ∧
      (0xC000 : BitVec 16) ≠ 0 ∧ req1Legal .default 0xC000 = true ∧ (0x3F : BitVec 8) ≠ 0 ∧
      (Instr.applyMode2 0x3F).WellFormed := by decide

theorem witness_SetChannelStoresItsFourRegisters :
    (boundDouble opened).rst = false ∧ (boundDouble opened).bound = true ∧
      (boundDouble opened).params = Params.default ∧ (boundDouble opened).env.source = .double opened ∧ opened.Calm ∧
      Memory.wf opened.regs = true ∧ opened.autoIncrement .default = true ∧ (15 : BitVec 8).toNat ≤ 15 := by decide

theorem witness_SetFrequencyConfiguresTheDouble :
    (boundDouble opened).rst = false ∧ (boundDouble opened).bound = true ∧ (1 : BitVec 32) ≠ 0 ∧
      (boundDouble opened).params.wf ∧ (boundDouble opened).env.source = .double opened ∧ opened.Calm ∧
      Memory.wf opened.regs = true := by decide

/-- Both forms of an empty request have well-formed parameters. -/
theorem witness_OpenConfiguresTheDouble :
    State.reset.rst = false ∧ State.reset.bound = false ∧ State.reset.params.wf ∧
      State.reset.env.source = .double Double.powerOn ∧ Double.powerOn.Calm ∧
      Memory.wf Double.powerOn.regs = true ∧ { Params.default with emptyForm := .writeZero }.wf := by decide

/-- P4: another agent sets ALLCALL before the write-back. -/
def raced : Double := { opened with others := [(2, [0x00, 0x21])] }

theorem witness_UnlockedWriteBetweenReadAndWriteBackIsLost :
    (boundDouble raced).rst = false ∧ (boundDouble raced).bound = true ∧ (boundDouble raced).params.wf ∧
      (0x0040 : BitVec 16) ≠ 0 ∧ req1Legal .default 0x0040 = true ∧
      (boundDouble raced).env.source = .double raced ∧ raced.inject = [] ∧
      raced.others = [((boundDouble raced).env.txns + 2, [Params.default.regMode1, 0x21])] ∧
      Memory.wf raced.regs = true := by decide

/-- P3: the PRE_SCALE write is made to fail. -/
def jammed : Double := { opened with inject := [3] }

theorem witness_FailedPrescaleWriteLeavesTheDoubleAsleep :
    (boundDouble jammed).rst = false ∧ (boundDouble jammed).bound = true ∧ (200 : BitVec 32) ≠ 0 ∧
      (boundDouble jammed).params.wf ∧ (boundDouble jammed).env.source = .double jammed ∧
      jammed.inject = [(boundDouble jammed).env.txns + 3] ∧ jammed.others = [] ∧ Memory.wf jammed.regs = true := by
  decide

/-- A set with a conflict, and one without. -/
theorem witness_BracedMode1SetNamesExactlyItsSlots :
    Params.default.m1.positions.Nodup ∧
      (∃ x ∈ [(⟨.ai, true⟩ : Mode1Item), ⟨.ai, false⟩], ∃ y ∈ [(⟨.ai, true⟩ : Mode1Item), ⟨.ai, false⟩],
        x.flag = y.flag ∧ x.on ≠ y.on) ∧
      ¬ (∃ x ∈ [(⟨.ai, true⟩ : Mode1Item), ⟨.restart, false⟩], ∃ y ∈ [(⟨.ai, true⟩ : Mode1Item), ⟨.restart, false⟩],
        x.flag = y.flag ∧ x.on ≠ y.on) := by decide

end Sys2Proof.Tests
end

section
/-! The block's own registers (10_state R102 to R105): which step writes `S.bound`, `S.chan`, `S.w` and `S.p`, and that
no step stops under the invariant. -/

namespace Sys2Proof.Machine

/-! ### What one micro-operation writes -/

section advance
variable (s : State) (op : MicroOp)

@[simp] theorem State.advance_bound : (s.advance op).bound = s.bound := by
  unfold State.advance; split <;> simp
@[simp] theorem State.advance_chan : (s.advance op).chan = s.chan := by
  unfold State.advance; split <;> simp
@[simp] theorem State.advance_w : (s.advance op).w = s.w := by
  unfold State.advance; split <;> simp
@[simp] theorem State.advance_p : (s.advance op).p = s.p := by
  unfold State.advance; split <;> simp

end advance

section finish
variable {op : MicroOp} {r : BusResponse} {s : State}

/-- Only RD writes the working byte (R104). -/
theorem MicroOp.eq_rd_of_finish_w_ne (h : (op.finish r s).w ≠ s.w) : op = .rd := by
  cases hs : op.succeeds r with
  | false => exact absurd (by simp [MicroOp.finish_failure hs]) h
  | true =>
    rw [MicroOp.finish_success hs, State.advance_w] at h
    cases op with
    | rd => rfl
    | ptr _ | wk _ _ | wb _ _ | w5 _ _ _ _ _ | bopen _ | bbind _ | bclose => exact absurd rfl h

/-- Only BOPEN writes the channel token, and a successful one writes the bus's (R103). -/
theorem MicroOp.bopen_of_finish_chan_ne (h : (op.finish r s).chan ≠ s.chan) :
    ∃ path, op = .bopen path ∧ (r.ok = true → (op.finish r s).chan = r.chan) := by
  cases op with
  | bopen path =>
    exact ⟨path, rfl, fun hok => by simp [MicroOp.finish_success (op := .bopen path) hok]⟩
  | ptr _ | wk _ _ | rd | wb _ _ | w5 _ _ _ _ _ | bbind _ | bclose =>
    refine absurd ?_ h
    unfold MicroOp.finish
    split <;> simp [MicroOp.spoil]

/-- Only a successful BBIND sets `S.bound` (R102). -/
theorem MicroOp.bbind_of_finish_sets_bound (hs : s.bound = false) (h : (op.finish r s).bound = true) :
    ∃ a, op = .bbind a ∧ r.ok = true := by
  cases hok : op.succeeds r with
  | false => simp [MicroOp.finish_failure hok, hs] at h
  | true =>
    rw [MicroOp.finish_success hok, State.advance_bound] at h
    cases op with
    | bbind a => exact ⟨a, rfl, hok⟩
    | ptr _ | wk _ _ | rd | wb _ _ | w5 _ _ _ _ _ | bopen _ | bclose => simp [hs] at h

/-- Only BCLOSE clears `S.bound` (R102). -/
theorem MicroOp.eq_bclose_of_finish_clears_bound (hs : s.bound = true) (h : (op.finish r s).bound = false) :
    op = .bclose := by
  cases hok : op.succeeds r with
  | false => simp [MicroOp.finish_failure hok, hs] at h
  | true =>
    rw [MicroOp.finish_success hok, State.advance_bound] at h
    cases op with
    | bclose => rfl
    | ptr _ | wk _ _ | rd | wb _ _ | w5 _ _ _ _ _ | bopen _ | bbind _ => simp [hs] at h

/-- No micro-operation writes the prescale value (R105). -/
@[simp] theorem MicroOp.finish_p : (op.finish r s).p = s.p := by
  unfold MicroOp.finish; split <;> simp

end finish

/-! ### Acceptance writes neither the binding nor the working byte -/

/-- Everything the acceptance of a command can do. -/
theorem exec_cases {i : Instr} {s t : State} (h : exec i s = .next t) :
    (∃ c, preCheck s.params s.bound i = some c ∧ t = s.raise c) ∨
    (preCheck s.params s.bound i = none ∧ t = s.accepted i) := by
  rw [exec_eq] at h
  cases hc : preCheck s.params s.bound i with
  | some c => simp only [hc] at h; cases h; exact .inl ⟨c, rfl, rfl⟩
  | none => simp only [hc] at h; cases h; exact .inr ⟨rfl, rfl⟩

theorem exec_keeps_binding_w {i : Instr} {s t : State} (h : exec i s = .next t) : SameBinding s t ∧ t.w = s.w := by
  obtain ⟨c, _, rfl⟩ | ⟨_, rfl⟩ := exec_cases h <;> exact ⟨⟨rfl, rfl⟩, rfl⟩

/-- A step without reset leaves the binding and the working byte alone, or finishes the micro-operation at `upc`. -/
theorem step_keeps_or_finishes {s t : State} (hr : s.rst = false) (h : step s = .next t) :
    (SameBinding s t ∧ t.w = s.w) ∨
    (s.phase = .busy ∧ ∃ op r e, s.script[s.upc]? = some op ∧ s.env.answer s.params (op.request s) = some (r, e) ∧
      t = op.finish r (s.withEnv e)) := by
  obtain ⟨hr', _⟩ | ⟨_, _, _, rfl⟩ | ⟨_, _, word, rest, e, _, _, rfl⟩ | ⟨_, _, word, rest, i, _, _, he⟩ |
    ⟨_, _, _, _, _, rfl⟩ | ⟨_, hp, op, r, e, ho, _, ha, rfl⟩ := step_cases h
  · rw [hr] at hr'; cases hr'
  · exact .inl ⟨⟨rfl, rfl⟩, rfl⟩
  · exact .inl ⟨⟨rfl, rfl⟩, rfl⟩
  · exact .inl (by simpa [SameBinding] using exec_keeps_binding_w he)
  · exact .inl ⟨⟨rfl, rfl⟩, rfl⟩
  · exact .inr ⟨hp, op, r, e, ho, ha, rfl⟩

/-! ### Which command a binding micro-operation belongs to -/

/-- The micro-operations that open, bind or close the Device Handle (R409 to R411). -/
def MicroOp.managesBinding : MicroOp → Bool
  | .bopen _ | .bbind _ | .bclose => true
  | .ptr _ | .wk _ _ | .rd | .wb _ _ | .w5 _ _ _ _ _ => false

theorem not_managesBinding_of_mem_scriptEmpty {p : Params} {a : Byte} {op : MicroOp} (h : op ∈ scriptEmpty p a) :
    op.managesBinding = false := by
  obtain hs | hs := scriptEmpty_cases p a <;>
    · rw [hs, List.mem_singleton] at h
      subst h; rfl

theorem not_managesBinding_of_mem_scriptRmw1 {p : Params} {req : BitVec 16} {op : MicroOp}
    (h : op ∈ scriptRmw1 p req) : op.managesBinding = false := by
  by_cases h0 : req = 0
  · rw [h0, scriptRmw1_zero] at h
    exact not_managesBinding_of_mem_scriptEmpty h
  · simp only [scriptRmw1_of_ne h0, List.mem_cons, List.not_mem_nil, or_false] at h
    obtain rfl | rfl | rfl := h <;> rfl

theorem not_managesBinding_of_mem_scriptRmw2 {p : Params} {req : BitVec 8} {op : MicroOp}
    (h : op ∈ scriptRmw2 p req) : op.managesBinding = false := by
  by_cases h0 : req = 0
  · rw [h0, scriptRmw2_zero] at h
    exact not_managesBinding_of_mem_scriptEmpty h
  · simp only [scriptRmw2_of_ne h0, List.mem_cons, List.not_mem_nil, or_false] at h
    obtain rfl | rfl | rfl := h <;> rfl

theorem not_managesBinding_of_mem_scriptSf {p : Params} {op : MicroOp} (h : op ∈ scriptSf p) :
    op.managesBinding = false := by
  simp only [scriptSf, List.mem_append, List.mem_singleton] at h
  obtain ((h | rfl) | h) | h := h
  · exact not_managesBinding_of_mem_scriptRmw1 h
  · rfl
  · exact not_managesBinding_of_mem_scriptRmw1 h
  · exact not_managesBinding_of_mem_scriptRmw2 h

/-- R403: BOPEN and BBIND stand in OPEN's script only, BCLOSE in CLOSE's only. -/
theorem managesBinding_mem_scriptOf {p : Params} {i : Instr} {op : MicroOp} (h : op ∈ scriptOf p i)
    (hm : op.managesBinding = true) :
    (∃ path addr7, i = .openDevice path addr7 ∧ (op = .bopen path ∨ op = .bbind addr7)) ∨
    (i = .closeDevice ∧ op = .bclose) := by
  cases i with
  | openDevice path addr7 =>
    refine .inl ⟨path, addr7, rfl, ?_⟩
    simp only [scriptOf, scriptOpen, List.mem_append, List.mem_cons, List.not_mem_nil, or_false] at h
    obtain (((h | h) | h) | h) | h := h
    · exact h
    · simp [not_managesBinding_of_mem_scriptRmw1 h] at hm
    · simp [not_managesBinding_of_mem_scriptRmw2 h] at hm
    · simp [not_managesBinding_of_mem_scriptRmw2 h] at hm
    · simp [not_managesBinding_of_mem_scriptSf h] at hm
  | closeDevice => exact .inr ⟨rfl, List.mem_singleton.1 h⟩
  | applyMode1 req16 => simp [not_managesBinding_of_mem_scriptRmw1 h] at hm
  | applyMode2 req8 => simp [not_managesBinding_of_mem_scriptRmw2 h] at hm
  | setFrequency freq => simp [not_managesBinding_of_mem_scriptSf h] at hm
  | setChannel id on off =>
    rw [List.mem_singleton.1 h] at hm
    cases hm

/-! ### What the invariant says of an executing command -/

theorem State.scriptLatched_iff {s : State} :
    s.scriptLatched = true ↔ ∃ i, decode s.cmd = .ok i ∧ s.script = scriptOf s.params i ∧
      ∀ v, neededPrescale s.params i = some v → s.p = v := by
  unfold State.scriptLatched
  cases decode s.cmd with
  | ok i => simp [Option.all_eq_true]
  | error e => simp

/-- The command that executes is the one whose script holds the micro-operation at `upc`. -/
theorem State.Inv.mem_scriptOf {s : State} {op : MicroOp} (hi : s.Inv) (hp : s.phase = .busy)
    (ho : s.script[s.upc]? = some op) : ∃ i, decode s.cmd = .ok i ∧ op ∈ scriptOf s.params i := by
  obtain ⟨hlatched, -⟩ := hi.1 hp
  obtain ⟨i, hd, hscript, -⟩ := State.scriptLatched_iff.1 hlatched
  exact ⟨i, hd, hscript ▸ List.mem_of_getElem? ho⟩

/-- While a command executes `S.p` holds the prescale its script needs (R105). -/
theorem State.Inv.p_eq {s : State} {i : Instr} {v : Byte} (hi : s.Inv) (hp : s.phase = .busy)
    (hd : decode s.cmd = .ok i) (hv : neededPrescale s.params i = some v) : s.p = v := by
  obtain ⟨hlatched, -⟩ := hi.1 hp
  obtain ⟨j, hj, -, hpre⟩ := State.scriptLatched_iff.1 hlatched
  rw [hd] at hj; cases hj
  exact hpre v hv

theorem fresh_of_scriptTailOk_cons {fresh bound : Bool} {op : MicroOp} {rest : List MicroOp}
    (h : scriptTailOk fresh bound (op :: rest) = true) (hw : op.readsW = true) : fresh = true := by
  cases op with
  | wb a f =>
    simp only [scriptTailOk, Bool.and_eq_true] at h
    exact h.1.1
  | ptr _ | wk _ _ | rd | w5 _ _ _ _ _ | bopen _ | bbind _ | bclose => cases hw

/-- R104: no micro-operation reads the working byte unwritten. -/
theorem State.Inv.wFresh_of_readsW {s : State} {op : MicroOp} (hi : s.Inv) (hp : s.phase = .busy)
    (ho : s.script[s.upc]? = some op) (hw : op.readsW = true) : s.wFresh = true := by
  obtain ⟨-, -, htail, -⟩ := hi.1 hp
  obtain ⟨hlt, hget⟩ := List.getElem?_eq_some_iff.1 ho
  rw [List.drop_eq_getElem_cons hlt, hget] at htail
  exact fresh_of_scriptTailOk_cons htail hw

/-! ### R102: the binding -/

/-- R401, item 2: unbound, every command but OPEN fails its binding check. -/
theorem preCheck_unbound {p : Params} {i : Instr} (hwf : i.WellFormed)
    (hne : ∀ path addr7, i ≠ .openDevice path addr7) : preCheck p false i = some .notBound := by
  cases i with
  | openDevice path addr7 => exact absurd rfl (hne path addr7)
  | applyMode2 req8 => simp [preCheck, hwf]
  | closeDevice | applyMode1 _ | setFrequency _ | setChannel _ _ _ => rfl

theorem step_sets_bound {s t : State} (hi : s.Inv) (h : step s = .next t) (hs : s.bound = false)
    (ht : t.bound = true) :
    s.phase = .busy ∧ (∃ path addr7, decode s.cmd = .ok (.openDevice path addr7)) ∧
    ∃ a r e, s.script[s.upc]? = some (.bbind a) ∧ s.env.answer s.params (.busBind s.chan a) = some (r, e) ∧
      r.ok = true := by
  rcases Bool.eq_false_or_eq_true s.rst with hr | hr
  · rw [step_reset hr] at h; cases h; cases ht
  · obtain ⟨⟨hb, -⟩, -⟩ | ⟨hp, op, r, e, ho, ha, rfl⟩ := step_keeps_or_finishes hr h
    · rw [hb, hs] at ht; cases ht
    · obtain ⟨a, rfl, hok⟩ := MicroOp.bbind_of_finish_sets_bound (s := s.withEnv e) hs ht
      obtain ⟨i, hd, hmem⟩ := hi.mem_scriptOf hp ho
      obtain ⟨path, addr7, rfl, -⟩ | ⟨-, hop⟩ := managesBinding_mem_scriptOf hmem rfl
      · exact ⟨hp, ⟨path, addr7, hd⟩, a, r, e, ho, ha, hok⟩
      · cases hop

theorem step_clears_bound {s t : State} (hi : s.Inv) (h : step s = .next t) (hs : s.bound = true)
    (ht : t.bound = false) : s.rst = true ∨ (s.phase = .busy ∧ decode s.cmd = .ok .closeDevice) := by
  rcases Bool.eq_false_or_eq_true s.rst with hr | hr
  · exact .inl hr
  · obtain ⟨⟨hb, -⟩, -⟩ | ⟨hp, op, r, e, ho, -, rfl⟩ := step_keeps_or_finishes hr h
    · rw [hb, hs] at ht; cases ht
    · obtain rfl := MicroOp.eq_bclose_of_finish_clears_bound (s := s.withEnv e) hs ht
      obtain ⟨i, hd, hmem⟩ := hi.mem_scriptOf hp ho
      obtain ⟨_, _, -, hop | hop⟩ | ⟨rfl, -⟩ := managesBinding_mem_scriptOf hmem rfl
      · cases hop
      · cases hop
      · exact .inr ⟨hp, hd⟩

/-- Settles O13: only BBIND sets and only BCLOSE clears `S.bound` among the micro-operations, and under the invariant
these stand in OPEN's and in CLOSE's script. -/
theorem boundSetByOpenAndClearedByCloseOrReset : Obligations.BoundSetByOpenAndClearedByCloseOrReset := by
  refine ⟨fun s t hi h => step_sets_bound hi h, fun s t hi h => step_clears_bound hi h, ?_⟩
  intro i s hwf hne hs
  refine ⟨s.raise .notBound, ?_, s.raise_respondsFail _, rfl, hs⟩
  rw [exec_eq, hs, preCheck_unbound hwf hne]

/-! ### Progress -/

theorem acceptCommand_next (s : State) : ∃ t, acceptCommand s = .next t := by
  unfold acceptCommand
  split
  · exact ⟨s, rfl⟩
  · next word rest _ =>
    cases hd : decode word with
    | ok i => exact ⟨_, by rw [acceptWord_ok hd, exec_eq]⟩
    | error e => exact ⟨_, acceptWord_error hd⟩

theorem runMicroOp_next {s : State} (hi : s.Inv) (hp : s.phase = .busy) : ∃ t, runMicroOp s = .next t := by
  obtain ⟨hnone, -⟩ | ⟨op, ho, hreads, hstale, -⟩ | ⟨_, _, _, _, h⟩ | ⟨_, _, _, _, _, _, h⟩ := runMicroOp_cases s
  · obtain ⟨-, hlt, -⟩ := hi.1 hp
    exact absurd (List.getElem?_eq_none_iff.1 hnone) (by omega)
  · rw [hi.wFresh_of_readsW hp ho hreads] at hstale; cases hstale
  · exact ⟨_, h⟩
  · exact ⟨_, h⟩

/-- Settles O32: acceptance always answers, and the invariant rules out both faults of the sequencer. -/
theorem noStepStopsUnderTheInvariant : Obligations.NoStepStopsUnderTheInvariant := by
  intro s hi
  rcases Bool.eq_false_or_eq_true s.rst with hr | hr
  · exact ⟨_, step_reset hr⟩
  · cases hp : s.phase with
    | idle => rw [step_idle hr hp]; exact acceptCommand_next s
    | busy => rw [step_busy hr hp]; exact runMicroOp_next hi hp

/-! ### R104: the working byte -/

theorem step_wb_unwritten {s : State} {a : Byte} {f : WorkFn} (hr : s.rst = false) (hp : s.phase = .busy)
    (hw : s.wFresh = false) (ho : s.script[s.upc]? = some (.wb a f)) : step s = .fault .workingByteUnwritten := by
  rw [step_busy hr hp]
  obtain ⟨h, -⟩ | ⟨_, -, -, -, h⟩ | ⟨op, h, hf, -⟩ | ⟨op, _, _, h, hf, -⟩ := runMicroOp_cases s
  · rw [ho] at h; cases h
  · exact h
  · rw [ho] at h; cases h
    exact absurd (hf rfl) (by simp [hw])
  · rw [ho] at h; cases h
    exact absurd (hf rfl) (by simp [hw])

/-- Settles O33: RD is the only micro-operation whose effect is on `S.w`, and the invariant's tail condition puts an RD
before every WB. -/
theorem workingByteWrittenByReadOnly : Obligations.WorkingByteWrittenByReadOnly := by
  refine ⟨?_, fun s hi _ hp a f ho => hi.wFresh_of_readsW hp ho rfl, fun s hr hp hw a f ho =>
    step_wb_unwritten hr hp hw ho⟩
  intro s t hr h hne
  obtain ⟨-, hw⟩ | ⟨hp, op, r, e, ho, -, rfl⟩ := step_keeps_or_finishes hr h
  · exact absurd hw hne
  · obtain rfl := MicroOp.eq_rd_of_finish_w_ne (s := s.withEnv e) hne
    exact ⟨hp, ho⟩

/-! ### R103: the channel token -/

/-- Settles O34: BOPEN is the only micro-operation that writes `S.chan`. -/
theorem chanWrittenOnlyByBusOpen : Obligations.ChanWrittenOnlyByBusOpen := by
  intro s t hr h hne
  obtain ⟨⟨-, hc⟩, -⟩ | ⟨hp, op, r, e, ho, ha, rfl⟩ := step_keeps_or_finishes hr h
  · exact absurd hc hne
  · obtain ⟨path, rfl, hok⟩ := MicroOp.bopen_of_finish_chan_ne (s := s.withEnv e) hne
    exact ⟨hp, path, r, e, ho, ha, hok⟩

/-! ### R105: the prescale value -/

theorem command_of_neededPrescale {p : Params} {i : Instr} {v : Byte} (h : neededPrescale p i = some v) :
    (∃ freq, i = .setFrequency freq) ∨ ∃ path addr7, i = .openDevice path addr7 := by
  cases i with
  | setFrequency freq => exact .inl ⟨freq, rfl⟩
  | openDevice path addr7 => exact .inr ⟨path, addr7, rfl⟩
  | closeDevice | applyMode1 _ | applyMode2 _ | setChannel _ _ _ => cases h

/-- Acceptance writes `S.p` only when it starts a command that needs a prescale value. -/
theorem exec_writes_p {i : Instr} {s t : State} (h : exec i s = .next t) (hne : t.p ≠ s.p) :
    t = s.accepted i ∧ ∃ v, neededPrescale s.params i = some v := by
  obtain ⟨c, _, rfl⟩ | ⟨_, rfl⟩ := exec_cases h
  · exact absurd (State.raise_p s c) hne
  · refine ⟨rfl, Option.ne_none_iff_exists'.1 fun hnone => hne ?_⟩
    rw [State.accepted_p, hnone, Option.getD_none]

theorem step_writes_p {s t : State} (hr : s.rst = false) (h : step s = .next t) (hne : t.p ≠ s.p) :
    s.phase = .idle ∧ t.phase = .busy ∧ t.env = s.env ∧
    ((∃ freq, decode t.cmd = .ok (.setFrequency freq)) ∨ ∃ path addr7, decode t.cmd = .ok (.openDevice path addr7)) := by
  obtain ⟨hr', _⟩ | ⟨_, _, _, rfl⟩ | ⟨_, _, _, _, _, _, _, rfl⟩ | ⟨_, hp, word, rest, i, _, hd, he⟩ |
    ⟨_, _, _, _, _, rfl⟩ | ⟨_, _, op, r, e, _, _, _, rfl⟩ := step_cases h
  · rw [hr] at hr'; cases hr'
  · exact absurd rfl hne
  · exact absurd rfl hne
  · obtain ⟨rfl, v, hv⟩ := exec_writes_p he hne
    refine ⟨hp, rfl, rfl, ?_⟩
    obtain ⟨freq, rfl⟩ | ⟨path, addr7, rfl⟩ := command_of_neededPrescale hv
    · exact .inl ⟨freq, hd⟩
    · exact .inr ⟨path, addr7, hd⟩
  · exact absurd rfl hne
  · exact absurd MicroOp.finish_p hne

/-- Settles O35: no micro-operation writes `S.p`, acceptance does so by `neededPrescale`, and the invariant keeps that
value while the command executes. -/
theorem prescaleWrittenAtAcceptanceOnly : Obligations.PrescaleWrittenAtAcceptanceOnly :=
  ⟨fun _ _ hr h hne => step_writes_p hr h hne, fun _ _ hi hp hd => hi.p_eq hp hd rfl,
    fun _ _ _ hi hp hd => hi.p_eq hp hd rfl⟩

end Sys2Proof.Machine
end

section
/-! One bus transaction of the block (20_memory R201 to R214): what BusWrite, BusRead, BusOpen and BusBind do on each
answer, and which addresses and widths are sent. -/

namespace Sys2Proof.Machine

/-! ### What going on after a micro-operation leaves alone -/

section advance
variable (s : State) (op : MicroOp)

@[simp] theorem State.advance_upc : (s.advance op).upc = s.upc + 1 := by
  unfold State.advance; split <;> simp
@[simp] theorem State.advance_script : (s.advance op).script = s.script := by
  unfold State.advance; split <;> simp
@[simp] theorem State.advance_cmd : (s.advance op).cmd = s.cmd := by
  unfold State.advance; split <;> simp
@[simp] theorem State.advance_cmds : (s.advance op).cmds = s.cmds := by
  unfold State.advance; split <;> simp
@[simp] theorem State.advance_params : (s.advance op).params = s.params := by
  unfold State.advance; split <;> simp
@[simp] theorem State.advance_rst : (s.advance op).rst = s.rst := by
  unfold State.advance; split <;> simp
@[simp] theorem State.advance_env : (s.advance op).env = s.env := by
  unfold State.advance; split <;> simp

/-- R402, R412: the last micro-operation puts a successful response on the port, an earlier one leaves the port as it
is. -/
theorem State.advance_response :
    if s.upc + 1 = s.script.length then (s.advance op).RespondsOk
    else (s.advance op).phase = s.phase ∧ SameResponse s (s.advance op) := by
  split
  · next h => rw [State.advance_last h]; exact State.complete_respondsOk _ op
  · next h => rw [State.advance_inner h]; exact ⟨rfl, rfl, rfl, rfl, rfl⟩

end advance

/-! ### R206: the outcome of a write -/

/-- What the four writing micro-operations share: no effect on block state, and one success test. -/
theorem MicroOp.finish_of_busWrite {op : MicroOp} {s : State} {chan : Token} {bytes : List Byte}
    (h : op.request s = .busWrite chan bytes) (r : BusResponse) (u : State) :
    op.finish r u = if r.count = bytes.length then u.advance op else u.raise .shortTransfer := by
  cases op with
  | ptr a | wb a f | w5 a b0 b1 b2 b3 =>
    cases h; simp [MicroOp.finish, MicroOp.succeeds, MicroOp.spoil, MicroOp.failCause]
  | wk a v =>
    cases v <;> cases h <;> simp [MicroOp.finish, MicroOp.succeeds, MicroOp.spoil, MicroOp.failCause]
  | rd | bopen path | bbind addr7 | bclose => cases h

/-- Settles O16: every writing micro-operation finishes alike, by `MicroOp.finish_of_busWrite`. -/
theorem busWriteSucceedsExactlyOnFullCount : Obligations.BusWriteSucceedsExactlyOnFullCount := by
  intro s op chan bytes r e hr hp ho hw hq ha
  refine ⟨_, step_answered hr hp ho hw (hq ▸ ha), ?_⟩
  rw [MicroOp.finish_of_busWrite hq]
  split
  · simpa [hp, SameBinding, SameCommandSide, SameResponse] using (s.withEnv e).advance_response op
  · simp [SameBinding, SameCommandSide, State.RespondsFail]

/-! ### R207: the outcome of a read -/

theorem MicroOp.finish_rd (r : BusResponse) (s : State) :
    MicroOp.rd.finish r s =
      if r.count = 1 then (MicroOp.rd.effect r s).advance .rd else s.raise .shortTransfer := by
  simp [MicroOp.finish, MicroOp.succeeds, MicroOp.spoil, MicroOp.failCause]

/-- Settles O17: RD's effect, which is on the working byte alone, happens on the count 1 and on no other. -/
theorem busReadSucceedsExactlyOnCountOne : Obligations.BusReadSucceedsExactlyOnCountOne := by
  intro s r e hr hp ho ha
  refine ⟨_, step_answered (op := .rd) hr hp ho (by simp [MicroOp.readsW]) ha, ?_⟩
  rw [MicroOp.finish_rd]
  split
  · simpa [hp, SameBinding, SameCommandSide, SameResponse] using
      (MicroOp.rd.effect r (s.withEnv e)).advance_response .rd
  · simp [SameBinding, SameCommandSide, State.RespondsFail]

/-! ### R208: the outcome of BusOpen and of BusBind -/

theorem MicroOp.finish_bopen (path : Token) (r : BusResponse) (s : State) :
    (MicroOp.bopen path).finish r s =
      if r.ok = true then ((MicroOp.bopen path).effect r s).advance (.bopen path)
      else ((MicroOp.bopen path).spoil s).raise .transport := rfl

theorem MicroOp.finish_bbind (addr7 : BitVec 7) (r : BusResponse) (s : State) :
    (MicroOp.bbind addr7).finish r s =
      if r.ok = true then ((MicroOp.bbind addr7).effect r s).advance (.bbind addr7) else s.raise .transport := rfl

/-- Settles O18: BOPEN's and BBIND's effects, each on one register, happen when the bus answers `ok` and not
otherwise. -/
theorem failedOpenOrBindIsTransport : Obligations.FailedOpenOrBindIsTransport := by
  refine ⟨fun s path r e hr hp ho ha => ?_, fun s addr7 r e hr hp ho ha => ?_⟩
  · refine ⟨_, step_answered (op := .bopen path) hr hp ho (by simp [MicroOp.readsW]) ha, ?_⟩
    rw [MicroOp.finish_bopen]
    split
    · simpa [hp, SameCommandSide, SameResponse] using
        ((MicroOp.bopen path).effect r (s.withEnv e)).advance_response (.bopen path)
    · simp [SameCommandSide, State.RespondsFail]
  · refine ⟨_, step_answered (op := .bbind addr7) hr hp ho (by simp [MicroOp.readsW]) ha, ?_⟩
    rw [MicroOp.finish_bbind]
    split
    · simpa [hp, SameCommandSide, SameResponse] using
        ((MicroOp.bbind addr7).effect r (s.withEnv e)).advance_response (.bbind addr7)
    · simp [SameCommandSide, State.RespondsFail]

/-! ### R214: the widths -/

theorem MicroOp.request_widthOk (op : MicroOp) (s : State) : (op.request s).widthOk = true := by
  cases op with
  | wk a v => cases v <;> rfl
  | ptr _ | rd | wb _ _ | w5 _ _ _ _ _ | bopen _ | bbind _ | bclose => rfl

/-- The outstanding request is the one of the micro-operation at `upc` (R402). -/
theorem State.eq_request_of_outstanding {s : State} {q : BusRequest} (h : s.outstanding = some q) :
    ∃ op, s.script[s.upc]? = some op ∧ q = op.request s := by
  unfold State.outstanding at h
  split at h
  · cases h
  · obtain ⟨op, ho, rfl⟩ := Option.map_eq_some_iff.1 h
    exact ⟨op, ho, rfl⟩

/-- Settles O41: an outstanding request is a micro-operation's, and each of these has a legal width. -/
theorem onlyLegalWidthsAreIssued : Obligations.OnlyLegalWidthsAreIssued := by
  intro s q h
  obtain ⟨op, -, rfl⟩ := State.eq_request_of_outstanding h
  exact op.request_widthOk s

/-! ### R201: the addresses -/

/-- The address is one of the three fixed registers of R202. -/
def IsFixedRegister (p : Params) (a : Byte) : Prop := a = p.regMode1 ∨ a = p.regMode2 ∨ a = p.regPreScale

theorem address_of_mem_scriptEmpty {p : Params} {b a : Byte} {op : MicroOp} (h : op ∈ scriptEmpty p b)
    (ha : op.address = some a) : a = b := by
  obtain hs | hs := scriptEmpty_cases p b <;>
    · rw [hs, List.mem_singleton] at h
      subst h; cases ha; rfl

theorem address_of_mem_scriptRmw1 {p : Params} {req : BitVec 16} {a : Byte} {op : MicroOp}
    (h : op ∈ scriptRmw1 p req) (ha : op.address = some a) : a = p.regMode1 := by
  by_cases h0 : req = 0
  · rw [h0, scriptRmw1_zero] at h
    exact address_of_mem_scriptEmpty h ha
  · simp only [scriptRmw1_of_ne h0, List.mem_cons, List.not_mem_nil, or_false] at h
    obtain rfl | rfl | rfl := h <;> cases ha <;> rfl

theorem address_of_mem_scriptRmw2 {p : Params} {req : BitVec 8} {a : Byte} {op : MicroOp}
    (h : op ∈ scriptRmw2 p req) (ha : op.address = some a) : a = p.regMode2 := by
  by_cases h0 : req = 0
  · rw [h0, scriptRmw2_zero] at h
    exact address_of_mem_scriptEmpty h ha
  · simp only [scriptRmw2_of_ne h0, List.mem_cons, List.not_mem_nil, or_false] at h
    obtain rfl | rfl | rfl := h <;> cases ha <;> rfl

theorem isFixedRegister_of_mem_scriptSf {p : Params} {a : Byte} {op : MicroOp} (h : op ∈ scriptSf p)
    (ha : op.address = some a) : IsFixedRegister p a := by
  simp only [scriptSf, List.mem_append, List.mem_singleton] at h
  obtain ((h | rfl) | h) | h := h
  · exact .inl (address_of_mem_scriptRmw1 h ha)
  · cases ha; exact .inr (.inr rfl)
  · exact .inl (address_of_mem_scriptRmw1 h ha)
  · exact .inr (.inl (address_of_mem_scriptRmw2 h ha))

theorem isFixedRegister_of_mem_scriptOpen {p : Params} {path : Token} {addr7 : BitVec 7} {a : Byte} {op : MicroOp}
    (h : op ∈ scriptOpen p path addr7) (ha : op.address = some a) : IsFixedRegister p a := by
  simp only [scriptOpen, List.mem_append, List.mem_cons, List.not_mem_nil, or_false] at h
  obtain ((((rfl | rfl) | h) | h) | h) | h := h
  · cases ha
  · cases ha
  · exact .inl (address_of_mem_scriptRmw1 h ha)
  · exact .inr (.inl (address_of_mem_scriptRmw2 h ha))
  · exact .inr (.inl (address_of_mem_scriptRmw2 h ha))
  · exact isFixedRegister_of_mem_scriptSf h ha

/-- R201, command by command. -/
theorem address_of_mem_scriptOf {p : Params} {i : Instr} {a : Byte} {op : MicroOp} (h : op ∈ scriptOf p i)
    (ha : op.address = some a) : IsFixedRegister p a ∨ ∃ id, channelOf i = some id ∧ a = chanAddr p id := by
  cases i with
  | openDevice path addr7 => exact .inl (isFixedRegister_of_mem_scriptOpen h ha)
  | closeDevice => rw [List.mem_singleton.1 h] at ha; cases ha
  | applyMode1 req16 => exact .inl (.inl (address_of_mem_scriptRmw1 h ha))
  | applyMode2 req8 => exact .inl (.inr (.inl (address_of_mem_scriptRmw2 h ha)))
  | setFrequency freq => exact .inl (isFixedRegister_of_mem_scriptSf h ha)
  | setChannel id on off =>
    rw [List.mem_singleton.1 h] at ha
    cases ha; exact .inr ⟨id, rfl, rfl⟩

/-- Settles O40: the scripts are built from pieces, each of which names one fixed register or the channel's address. -/
theorem commandsReachOnlyFourKindsOfAddress : Obligations.CommandsReachOnlyFourKindsOfAddress := by
  intro p i op a h ha
  obtain (h1 | h2 | h3) | hchan := address_of_mem_scriptOf h ha
  · exact .inl h1
  · exact .inr (.inl h2)
  · exact .inr (.inr (.inl h3))
  · exact .inr (.inr (.inr hchan))

end Sys2Proof.Machine
end

section
/-! The register space and the reference double (20_memory R203, R211, R213, R223, R232): channel addresses, byte order,
what a transaction reads and stores, and a write that another agent loses. -/

namespace Sys2Proof.Machine

/-! ### R203: channel addresses -/

theorem toNat_chanAddr (p : Params) (id : BitVec 8) :
    (chanAddr p id).toNat = (p.regLed0OnL.toNat + 4 * id.toNat) % 256 := by
  rw [chanAddr, ← toNat_trunc8_ofNat]
  push_cast; rfl

theorem toNat_chanAddr_default (id : BitVec 8) :
    (chanAddr Params.default id).toNat = (6 + 4 * id.toNat) % 256 := toNat_chanAddr Params.default id

/-- R204: 64 channels of four bytes are the whole register space. -/
theorem chanAddr_add_64 (p : Params) (id : BitVec 8) : chanAddr p (id + 64) = chanAddr p id := by
  apply BitVec.eq_of_toNat_eq
  have h64 : (id + 64).toNat = (id.toNat + 64) % 256 := BitVec.toNat_add id 64
  rw [toNat_chanAddr, toNat_chanAddr, h64]
  omega

theorem namesRegister_iff (a : Byte) : namesRegister a = true ↔ a.toNat ≤ 69 ∨ 250 ≤ a.toNat := by
  simp [namesRegister]

/-- Settles O50: all four parts are arithmetic on `toNat_chanAddr`. -/
theorem channelAddressIsBasePlusFourId : Obligations.ChannelAddressIsBasePlusFourId := by
  refine ⟨toNat_chanAddr, chanAddr_add_64, fun id hid => ⟨?_, fun k hk => ?_⟩, fun id hlo hhi => ?_⟩
  · rw [toNat_chanAddr_default]; omega
  · rw [namesRegister_iff, BitVec.toNat_add, toNat_chanAddr_default, BitVec.toNat_ofNat]; omega
  · rw [← Bool.not_eq_true, namesRegister_iff, toNat_chanAddr_default]; omega

/-! ### R211: byte order -/

/-- Settles O51: each of the four bytes lies whole in one of the two halves. -/
theorem channelBytesAreLittleEndian : Obligations.ChannelBytesAreLittleEndian := by
  intro on off
  have h0 : (off ++ on).extractLsb' 0 8 = lowByte on := BitVec.extractLsb'_append_eq_of_add_le (by omega)
  have h1 : (off ++ on).extractLsb' 8 8 = highByte on := BitVec.extractLsb'_append_eq_of_add_le (by omega)
  have h2 : (off ++ on).extractLsb' 16 8 = lowByte off := BitVec.extractLsb'_append_eq_of_le (by omega)
  have h3 : (off ++ on).extractLsb' 24 8 = highByte off := BitVec.extractLsb'_append_eq_of_le (by omega)
  rw [leBytes4, h0, h1, h2, h3]

/-! ### R231 to R235: transactions that are not made to fail -/

section respond
variable {p : Params} {k : Nat} {d : Double} (c : Token) (h : k ∉ d.inject)
include h

theorem Double.respond_write (bytes : List Byte) :
    d.respond p k (.busWrite c bytes) = ({ count := bytes.length }, d.write p bytes) := if_neg h

theorem Double.respond_read (n : Nat) :
    d.respond p k (.busRead c n) = ({ count := n, byte := d.reg d.ptr }, d) := if_neg h

end respond

/-- Settles O52: the pointer write moves the pointer alone, and the read answers the register there. -/
theorem pointerIdiomReadsTheRegister : Obligations.PointerIdiomReadsTheRegister := by
  intro p d j k c a hj hk
  rw [Double.respond_write c hj, Double.write_pointer, Double.respond_read (d := { d with ptr := a }) c hk]
  exact ⟨rfl, rfl, rfl⟩

/-! ### R232: data bytes away from MODE1 and PRE_SCALE -/

/-- A store at such an address is a plain store: nothing is masked and nothing refused. -/
def IsPlainAddress (p : Params) (a : Byte) : Prop := a ≠ p.regMode1 ∧ a ≠ p.regPreScale

/-- How far the pointer moves between two data bytes (R232). -/
def Double.stride (p : Params) (d : Double) : Byte := if d.autoIncrement p then 1 else 0

/-- The registers after data bytes are stored at `a`, `a + inc`, `a + 2 * inc` and so on. -/
def storedFrom (inc : Byte) (regs : Byte → Byte) (a : Byte) : List Byte → Byte → Byte
  | [] => regs
  | v :: rest => storedFrom inc (Function.update regs a v) (a + inc) rest

theorem Double.advance_ptr_eq_add_stride (p : Params) (d : Double) : (d.advance p).ptr = d.ptr + d.stride p := by
  rw [Double.advance_ptr, Double.stride]; split <;> simp

@[simp] theorem Double.advance_stride (p : Params) (d : Double) : (d.advance p).stride p = d.stride p := by
  simp [Double.stride, Double.autoIncrement]

theorem Double.reg_store_plain {p : Params} {d : Double} (v : Byte) (hwf : Memory.wf d.regs = true)
    (hplain : IsPlainAddress p d.ptr) : (d.store p v).reg = Function.update d.reg d.ptr v := by
  obtain ⟨hmode1, hpre⟩ := hplain
  funext x
  rw [Double.reg_store p d v x hwf, Function.update_apply]
  simp [hmode1, hpre]

theorem Double.stride_store_plain {p : Params} {d : Double} (v : Byte) (hwf : Memory.wf d.regs = true)
    (hplain : IsPlainAddress p d.ptr) : (d.store p v).stride p = d.stride p := by
  simp [Double.stride, Double.autoIncrement, Double.reg_store_plain v hwf hplain,
    Function.update_of_ne hplain.1.symm]

/-- R232's loop: each byte lands one stride after the one before it, and the pointer stays at the last byte's
address. -/
theorem Double.storeAll_plain {p : Params} {inc : Byte} : ∀ (data : List Byte) (d : Double),
    Memory.wf d.regs = true → d.stride p = inc →
    (∀ k < data.length, IsPlainAddress p (d.ptr + BitVec.ofNat 8 k * inc)) →
    (Double.storeAll p d data).reg = storedFrom inc d.reg d.ptr data ∧
    (Double.storeAll p d data).ptr = d.ptr + BitVec.ofNat 8 (data.length - 1) * inc
  | [], d, _, _, _ => by simp [Double.storeAll, storedFrom]
  | [v], d, hwf, _, hplain => by
    have hhead : IsPlainAddress p d.ptr := by simpa using hplain 0
    simp [Double.storeAll, storedFrom, Double.reg_store_plain v hwf hhead]
  | v :: v' :: rest, d, hwf, hinc, hplain => by
    have hhead : IsPlainAddress p d.ptr := by simpa using hplain 0
    have hptr : ((d.store p v).advance p).ptr = d.ptr + inc := by
      rw [Double.advance_ptr_eq_add_stride, Double.store_ptr, Double.stride_store_plain v hwf hhead, hinc]
    have hnext (k : Nat) : d.ptr + inc + BitVec.ofNat 8 k * inc = d.ptr + BitVec.ofNat 8 (k + 1) * inc := by
      rw [BitVec.ofNat_add, show BitVec.ofNat 8 1 = 1 from rfl]; ring
    have ih := Double.storeAll_plain (p := p) (inc := inc) (v' :: rest) ((d.store p v).advance p)
      (by simpa using Double.wf_store p d v hwf)
      (by rw [Double.advance_stride, Double.stride_store_plain v hwf hhead, hinc])
      (fun k hk => by rw [hptr, hnext]; exact hplain (k + 1) (by simpa using hk))
    have hreg : ((d.store p v).advance p).reg = Function.update d.reg d.ptr v := by
      funext x; rw [Double.advance_reg, Double.reg_store_plain v hwf hhead]
    rw [hptr, hreg, hnext] at ih
    exact ih

/-- Byte k of four lies at `a + k`. -/
theorem storedFrom_one_four (regs : Byte → Byte) (a b0 b1 b2 b3 : Byte) :
    storedFrom 1 regs a [b0, b1, b2, b3] = fun x =>
      if x = a + 3 then b3 else if x = a + 2 then b2 else if x = a + 1 then b1 else if x = a then b0 else regs x := by
  have h2 : a + 1 + 1 = a + 2 := by rw [BitVec.add_assoc]; rfl
  have h3 : a + 2 + 1 = a + 3 := by rw [BitVec.add_assoc]; rfl
  funext x
  simp only [storedFrom, Function.update_apply, h2, h3]

/-- Bytes stored at one address leave the last of them there. -/
theorem storedFrom_zero (regs : Byte → Byte) (a v : Byte) (data : List Byte) :
    storedFrom 0 regs a (data ++ [v]) = Function.update regs a v := by
  induction data generalizing regs with
  | nil => rfl
  | cons u data ih =>
    rw [List.cons_append, storedFrom, add_zero, ih, Function.update_idem]

/-- Settles O53: the loop of `Double.storeAll_plain`, with stride 1 and with stride 0. -/
theorem fourByteWriteFollowsAutoIncrement : Obligations.FourByteWriteFollowsAutoIncrement := by
  intro p d a b0 b1 b2 b3 hwf hplain
  refine ⟨fun hai => ?_, fun hai => ?_⟩
  · obtain ⟨hreg, hptr⟩ := Double.storeAll_plain (p := p) (inc := 1) [b0, b1, b2, b3] { d with ptr := a } hwf
      (if_pos hai) (fun k hk => by simpa [IsPlainAddress] using hplain k hk)
    rw [storedFrom_one_four] at hreg
    refine ⟨hptr, ?_⟩
    simp only [Double.write, hreg]
    refine ⟨by simp, by simp, by simp, by simp, fun x h0 h1 h2 h3 => ?_⟩
    rw [if_neg h3, if_neg h2, if_neg h1, if_neg h0]
    rfl
  · obtain ⟨hreg, hptr⟩ := Double.storeAll_plain (p := p) (inc := 0) [b0, b1, b2, b3] { d with ptr := a } hwf
      (if_neg (ne_true_of_eq_false hai)) (fun k hk => by simpa [IsPlainAddress] using hplain 0)
    replace hreg := hreg.trans (storedFrom_zero d.reg a b3 [b0, b1, b2])
    refine ⟨hptr.trans (by simp), ?_⟩
    simp only [Double.write, hreg]
    exact ⟨Function.update_self .., fun x hx => Function.update_of_ne hx ..⟩

/-! ### R223: an unlocked write between the read and the write-back -/

theorem Double.inject_runOthers (p : Params) (d : Double) (ws : List (List Byte)) :
    (d.runOthers p ws).inject = d.inject := by
  induction ws generalizing d with
  | nil => rfl
  | cons b ws ih => exact (ih _).trans (Double.inject_write p d b)

section answer
variable {p : Params} {e : Env} {d : Double} {ws : List (List Byte)} (hs : e.source = .double d)
  (hws : d.othersAt e.txns = ws)
include hs hws

/-- The double always answers; the other agents' writes scheduled before the transaction come first (R221). -/
theorem Env.answer_double (q : BusRequest) :
    ∃ e', e.answer p q = some (((d.runOthers p ws).respond p e.txns q).1, e') ∧
      e'.source = .double ((d.runOthers p ws).respond p e.txns q).2 ∧ e'.txns = e.txns + 1 ∧
      e'.log.length = e.log.length + ws.length + 1 := by
  rw [Env.answer, hs, ← hws]
  exact ⟨_, rfl, rfl, rfl, by simp only [List.length_append, List.length_map, List.length_singleton]⟩

theorem Env.answer_busWrite_double (c : Token) (bytes : List Byte) (hk : e.txns ∉ d.inject) :
    ∃ e', e.answer p (.busWrite c bytes) = some ({ count := bytes.length }, e') ∧
      e'.source = .double ((d.runOthers p ws).write p bytes) ∧ e'.txns = e.txns + 1 ∧
      e'.log.length = e.log.length + ws.length + 1 := by
  have h := Env.answer_double (p := p) hs hws (.busWrite c bytes)
  rwa [Double.respond_write c (by rwa [Double.inject_runOthers])] at h

theorem Env.answer_busRead_double (c : Token) (n : Nat) (hk : e.txns ∉ d.inject) :
    ∃ e', e.answer p (.busRead c n) =
        some ({ count := n, byte := (d.runOthers p ws).reg (d.runOthers p ws).ptr }, e') ∧
      e'.source = .double (d.runOthers p ws) ∧ e'.txns = e.txns + 1 ∧
      e'.log.length = e.log.length + ws.length + 1 := by
  have h := Env.answer_double (p := p) hs hws (.busRead c n)
  rwa [Double.respond_read c (by rwa [Double.inject_runOthers])] at h

end answer

theorem State.chipReg_of_double {s : State} {d : Double} (h : s.env.source = .double d) (a : Byte) :
    s.chipReg a = some (d.reg a) := by
  rw [State.chipReg, h]

/-- R233: MODE1 takes the byte written, less RESTART, whatever it held. -/
theorem Double.reg_write_mode1 {p : Params} {d : Double} (v : Byte) (hwf : Memory.wf d.regs = true)
    (hne : p.regMode1 ≠ p.regPreScale) :
    (d.write p [p.regMode1, v]).reg p.regMode1 = v &&& ~~~bit p.m1.restart.val := by
  rw [Double.write_two, Double.reg_store (d := { d with ptr := p.regMode1 }) (h := hwf)]
  simp [hne]

theorem Double.othersAt_single_same {d : Double} {k : Nat} {bytes : List Byte} (h : d.others = [(k, bytes)]) :
    d.othersAt k = [bytes] := by simp [Double.othersAt, h]

theorem Double.othersAt_single_other {d : Double} {j k : Nat} {bytes : List Byte} (h : d.others = [(k, bytes)])
    (hne : j ≠ k) : d.othersAt j = [] := by simp [Double.othersAt, h, hne.symm]

/-- A legal request to a bound block is accepted (R420). -/
theorem exec_applyMode1_legal {s : State} {req : BitVec 16} (hb : s.bound = true)
    (hl : req1Legal s.params req = true) : exec (.applyMode1 req) s = .next (s.accepted (.applyMode1 req)) := by
  have hcheck : preCheck s.params s.bound (.applyMode1 req) = none := by
    simp [preCheck, Instr.wellFormed, hb, hl]
  rw [exec_eq, hcheck]

/-- The three transactions of RMW1 (R423) when another agent writes `x` to MODE1 before the third. -/
theorem Env.answer_raced_rmw1 {p : Params} {e : Env} {d : Double} {x : Byte} (c : Token) (v : Byte)
    (hs : e.source = .double d) (hinj : d.inject = []) (hothers : d.others = [(e.txns + 2, [p.regMode1, x])]) :
    ∃ e1 e2 e3, e.answer p (.busWrite c [p.regMode1]) = some ({ count := 1 }, e1) ∧
      e1.answer p (.busRead c 1) = some ({ count := 1, byte := d.reg p.regMode1 }, e2) ∧
      e2.answer p (.busWrite c [p.regMode1, v]) = some ({ count := 2 }, e3) ∧
      e3.source = .double (((d.write p [p.regMode1]).write p [p.regMode1, x]).write p [p.regMode1, v]) ∧
      e3.log.length = e.log.length + 4 := by
  have never (k : Nat) : k ∉ d.inject := by simp [hinj]
  obtain ⟨e1, a1, src1, txns1, log1⟩ := Env.answer_busWrite_double (p := p) hs
    (Double.othersAt_single_other hothers (by omega)) c [p.regMode1] (never _)
  obtain ⟨e2, a2, src2, txns2, log2⟩ := Env.answer_busRead_double (p := p) src1
    (Double.othersAt_single_other hothers (by omega)) c 1 (never _)
  have h2 : e2.txns = e.txns + 2 := by omega
  obtain ⟨e3, a3, src3, -, log3⟩ := Env.answer_busWrite_double (p := p) src2
    (Double.othersAt_single_same (h2 ▸ hothers)) c [p.regMode1, v] (never _)
  refine ⟨e1, e2, e3, a1, a2, a3, src3, ?_⟩
  simp only [List.length_nil, List.length_singleton] at log1 log2 log3
  omega

/-- R423: an accepted non-empty APPLY_MODE1 ends in three steps with the response OK when its three transactions are
answered in full. -/
theorem runSteps_accepted_applyMode1 {s : State} {req : BitVec 16} {r1 r2 r3 : BusResponse} {e1 e2 e3 : Env}
    (hr : s.rst = false) (hreq : req ≠ 0)
    (a1 : s.env.answer s.params (.busWrite s.chan [s.params.regMode1]) = some (r1, e1))
    (a2 : e1.answer s.params (.busRead s.chan 1) = some (r2, e2))
    (a3 : e2.answer s.params (.busWrite s.chan [s.params.regMode1, m1 s.params r2.byte req]) = some (r3, e3))
    (c1 : r1.count = 1) (c2 : r2.count = 1) (c3 : r3.count = 2) :
    ∃ u, runSteps 3 (s.accepted (.applyMode1 req)) = .next u ∧ u.RespondsOk ∧ u.env = e3 := by
  have hscript : (s.accepted (.applyMode1 req)).script =
      [.ptr s.params.regMode1, .rd, .wb s.params.regMode1 (.m1 req)] := scriptRmw1_of_ne hreq
  have hrun := runSteps_rmw (s := s.accepted (.applyMode1 req)) (f := .m1 req) hr rfl
    (by rw [hscript]; rfl) (by rw [hscript]; rfl) (by rw [hscript]; rfl) a1 a2 a3 c1 c2 c3
  rw [State.advance_last (congrArg List.length hscript).symm] at hrun
  exact ⟨_, hrun, State.complete_respondsOk _ _, State.complete_env _ _⟩

/-- Settles O58: the other agent's write reaches the double before the write-back, whose store overwrites it with
`m1` of the byte read before it. -/
theorem unlockedWriteBetweenReadAndWriteBackIsLost : Obligations.UnlockedWriteBetweenReadAndWriteBackIsLost := by
  intro s d req x hr hb hparams hreq hlegal hsrc hinj hothers hwf
  obtain ⟨-, -, -, -, -, -, -, -, -, -, -, -, -, hne, -⟩ := hparams
  obtain ⟨e1, e2, e3, a1, a2, a3, src, hlog⟩ :=
    Env.answer_raced_rmw1 s.chan (m1 s.params (d.reg s.params.regMode1) req) hsrc hinj hothers
  obtain ⟨u, hrun, hok, rfl⟩ := runSteps_accepted_applyMode1 hr hreq a1 a2 a3 rfl rfl rfl
  refine ⟨_, u, exec_applyMode1_legal hb hlegal, hrun, hok, ?_, hlog⟩
  rw [State.chipReg_of_double src, Double.reg_write_mode1 _ (Double.wf_write _ _ _ (Double.wf_write _ _ _ hwf)) hne]

end Sys2Proof.Machine
end

section
/-! Words and instructions (30_encoding R302, R303, R311): the decoder reads `i` from a word exactly if the word selects
the row of `i` and carries the operands of `i`. The round trips of the encoding follow from this. -/

namespace Sys2Proof

/-! ### The opcode map -/

/-- The bits that a row's mask fixes are the row's, in a word that the row selects. -/
theorem OpcodeRow.field_of_selects {r : OpcodeRow} {w : CmdWord} (h : r.selects w = true) (start len : Nat)
    (hm : r.mask.extractLsb' start len = BitVec.allOnes len) :
    w.extractLsb' start len = r.matchBits.extractLsb' start len := by
  have hw : w &&& r.mask = r.matchBits := beq_iff_eq.1 h
  rw [← hw, BitVec.extractLsb'_and, hm, BitVec.and_allOnes]

/-- Every row fixes the `op` field (R301). -/
theorem OpcodeRow.mask_fixes_op : ∀ r ∈ opcodeTable, r.mask.extractLsb' 0 3 = BitVec.allOnes 3 := by decide

theorem OpcodeRow.eq_of_op_eq : ∀ r ∈ opcodeTable, ∀ r' ∈ opcodeTable,
    r.matchBits.extractLsb' 0 3 = r'.matchBits.extractLsb' 0 3 → r = r' := by decide

/-- R303: no word selects two rows. -/
theorem OpcodeRow.selects_unique {r r' : OpcodeRow} {w : CmdWord} (hr : r ∈ opcodeTable) (hr' : r' ∈ opcodeTable)
    (h : r.selects w = true) (h' : r'.selects w = true) : r = r' :=
  eq_of_op_eq r hr r' hr' <| by
    rw [← field_of_selects h 0 3 (mask_fixes_op r hr), ← field_of_selects h' 0 3 (mask_fixes_op r' hr')]

theorem OpcodeRow.not_selects_of_ne {r r' : OpcodeRow} {w : CmdWord} (hr : r ∈ opcodeTable) (h : r.selects w = true)
    (hr' : r' ∈ opcodeTable) (hne : r' ≠ r) : r'.selects w = false :=
  Bool.eq_false_iff.2 fun h' => hne (selects_unique hr' hr h' h)

theorem Instr.row_mem (i : Instr) : i.row ∈ opcodeTable := by
  cases i <;> simp [Instr.row, opcodeTable]

/-! ### The operands of a word -/

/-- The instruction of the same command whose operands are the fields of a word (R311). -/
def Instr.withOperandsOf (w : CmdWord) : Instr → Instr
  | .openDevice _ _ => .openDevice (w.extractLsb' 32 32) (w.extractLsb' 8 7)
  | .closeDevice => .closeDevice
  | .applyMode1 _ => .applyMode1 (w.extractLsb' 16 16)
  | .applyMode2 _ => .applyMode2 (w.extractLsb' 16 8)
  | .setFrequency _ => .setFrequency (w.extractLsb' 32 32)
  | .setChannel _ _ _ => .setChannel (w.extractLsb' 8 8) (w.extractLsb' 16 16) (w.extractLsb' 32 16)

@[simp] theorem Instr.row_withOperandsOf (w : CmdWord) (i : Instr) : (i.withOperandsOf w).row = i.row := by
  cases i <;> rfl

theorem Instr.exists_row_eq : ∀ r ∈ opcodeTable, ∃ i : Instr, i.row = r := by
  simp only [opcodeTable, List.forall_mem_cons, List.not_mem_nil, false_imp_iff, implies_true, and_true]
  exact ⟨⟨.openDevice 0 0, rfl⟩, ⟨.closeDevice, rfl⟩, ⟨.applyMode1 0, rfl⟩, ⟨.applyMode2 0, rfl⟩,
    ⟨.setFrequency 0, rfl⟩, ⟨.setChannel 0 0 0, rfl⟩⟩

/-! ### The decoder -/

/-- A word that selects a row decodes to that row's instruction: the decoder's tests before the row's fail. -/
theorem decode_of_selects {w : CmdWord} {i : Instr} (h : i.row.selects w = true) :
    decode w = .ok (i.withOperandsOf w) := by
  have other : ∀ r ∈ opcodeTable, r ≠ i.row → r.selects w = false :=
    fun r hr hne => OpcodeRow.not_selects_of_ne i.row_mem h hr hne
  simp only [opcodeTable, List.forall_mem_cons] at other
  obtain ⟨hopen, hclose, hmode1, hmode2, hfreq, -⟩ := other
  cases i <;> simp only [Instr.row] at h hopen hclose hmode1 hmode2 hfreq
  case openDevice => exact if_pos h
  case closeDevice =>
    rw [decode, hopen (by decide)]
    exact if_pos h
  case applyMode1 =>
    rw [decode, hopen (by decide), hclose (by decide)]
    exact if_pos h
  case applyMode2 =>
    rw [decode, hopen (by decide), hclose (by decide), hmode1 (by decide)]
    exact if_pos h
  case setFrequency =>
    rw [decode, hopen (by decide), hclose (by decide), hmode1 (by decide), hmode2 (by decide)]
    exact if_pos h
  case setChannel =>
    rw [decode, hopen (by decide), hclose (by decide), hmode1 (by decide), hmode2 (by decide), hfreq (by decide)]
    exact if_pos h

/-- The decoder answers an instruction only behind the test of that instruction's row. -/
theorem selects_of_decode {w : CmdWord} {i : Instr} (h : decode w = .ok i) : i.row.selects w = true := by
  unfold decode at h
  split_ifs at h <;> cases h <;> assumption

/-- R303, R311: what the decoder reads from a word. -/
theorem decode_eq_ok_iff {w : CmdWord} {i : Instr} :
    decode w = .ok i ↔ i.row.selects w = true ∧ i.withOperandsOf w = i := by
  refine ⟨fun h => ?_, fun ⟨h, hi⟩ => by rw [decode_of_selects h, hi]⟩
  have hsel := selects_of_decode h
  rw [decode_of_selects hsel] at h
  exact ⟨hsel, Except.ok.inj h⟩

/-! ### The encoder -/

theorem selects_encode {i : Instr} (h : i.WellFormed) : i.row.selects (encode i) = true := by
  cases i with
  | openDevice path addr7 => exact Laws.EncodedInRow.openDevice path addr7 h
  | closeDevice => exact Laws.EncodedInRow.closeDevice h
  | applyMode1 req16 => exact Laws.EncodedInRow.applyMode1 req16 h
  | applyMode2 req8 => exact Laws.EncodedInRow.applyMode2 req8 h
  | setFrequency freq => exact Laws.EncodedInRow.setFrequency freq h
  | setChannel id on off => exact Laws.EncodedInRow.setChannel id on off h

/-- The operand fields of an instruction's word are its operands. -/
theorem withOperandsOf_encode (i : Instr) : i.withOperandsOf (encode i) = i := by
  cases i <;> simp only [Instr.withOperandsOf, encode, BitVec.extractLsb'_append_eq_of_le,
    BitVec.extractLsb'_append_eq_of_add_le, Nat.reduceLeDiff, Nat.reduceSub, BitVec.extractLsb'_eq_self]

/-- A word that an instruction's row selects is the word of its own operands: `op` and the reserved fields are the
row's. -/
theorem encode_withOperandsOf {w : CmdWord} {i : Instr} (h : i.row.selects w = true) :
    encode (i.withOperandsOf w) = w := by
  cases i with
  | openDevice _ _ =>
    have fixed := OpcodeRow.field_of_selects (r := rowOpen) h
    have h15 : w.extractLsb' 15 17 = 0#17 := fixed 15 17 (by decide)
    have h3 : w.extractLsb' 3 5 = 0#5 := fixed 3 5 (by decide)
    have h0 : w.extractLsb' 0 3 = 0b000#3 := fixed 0 3 (by decide)
    simp only [Instr.withOperandsOf, encode, ← h15, ← h3, ← h0,
      BitVec.extractLsb'_append_extractLsb'_eq_extractLsb']
    exact BitVec.extractLsb'_eq_self
  | closeDevice =>
    have fixed := OpcodeRow.field_of_selects (r := rowClose) h
    have h3 : w.extractLsb' 3 61 = 0#61 := fixed 3 61 (by decide)
    have h0 : w.extractLsb' 0 3 = 0b001#3 := fixed 0 3 (by decide)
    simp only [Instr.withOperandsOf, encode, ← h3, ← h0,
      BitVec.extractLsb'_append_extractLsb'_eq_extractLsb']
    exact BitVec.extractLsb'_eq_self
  | applyMode1 _ =>
    have fixed := OpcodeRow.field_of_selects (r := rowApplyMode1) h
    have h32 : w.extractLsb' 32 32 = 0#32 := fixed 32 32 (by decide)
    have h3 : w.extractLsb' 3 13 = 0#13 := fixed 3 13 (by decide)
    have h0 : w.extractLsb' 0 3 = 0b010#3 := fixed 0 3 (by decide)
    simp only [Instr.withOperandsOf, encode, ← h32, ← h3, ← h0,
      BitVec.extractLsb'_append_extractLsb'_eq_extractLsb']
    exact BitVec.extractLsb'_eq_self
  | applyMode2 _ =>
    have fixed := OpcodeRow.field_of_selects (r := rowApplyMode2) h
    have h24 : w.extractLsb' 24 40 = 0#40 := fixed 24 40 (by decide)
    have h3 : w.extractLsb' 3 13 = 0#13 := fixed 3 13 (by decide)
    have h0 : w.extractLsb' 0 3 = 0b011#3 := fixed 0 3 (by decide)
    simp only [Instr.withOperandsOf, encode, ← h24, ← h3, ← h0,
      BitVec.extractLsb'_append_extractLsb'_eq_extractLsb']
    exact BitVec.extractLsb'_eq_self
  | setFrequency _ =>
    have fixed := OpcodeRow.field_of_selects (r := rowSetFrequency) h
    have h3 : w.extractLsb' 3 29 = 0#29 := fixed 3 29 (by decide)
    have h0 : w.extractLsb' 0 3 = 0b100#3 := fixed 0 3 (by decide)
    simp only [Instr.withOperandsOf, encode, ← h3, ← h0,
      BitVec.extractLsb'_append_extractLsb'_eq_extractLsb']
    exact BitVec.extractLsb'_eq_self
  | setChannel _ _ _ =>
    have fixed := OpcodeRow.field_of_selects (r := rowSetChannel) h
    have h48 : w.extractLsb' 48 16 = 0#16 := fixed 48 16 (by decide)
    have h3 : w.extractLsb' 3 5 = 0#5 := fixed 3 5 (by decide)
    have h0 : w.extractLsb' 0 3 = 0b101#3 := fixed 0 3 (by decide)
    simp only [Instr.withOperandsOf, encode, ← h48, ← h3, ← h0,
      BitVec.extractLsb'_append_extractLsb'_eq_extractLsb']
    exact BitVec.extractLsb'_eq_self

/-- R309: the reserved operand field of APPLY_MODE2 is 0 in a word that its row selects. -/
theorem wellFormed_withOperandsOf {w : CmdWord} {i : Instr} (h : i.row.selects w = true) :
    (i.withOperandsOf w).WellFormed := by
  cases i with
  | applyMode2 _ =>
    have hreserved : w.extractLsb' 22 2 = 0#2 :=
      OpcodeRow.field_of_selects (r := rowApplyMode2) h 22 2 (by decide)
    have hnested : (w.extractLsb' 16 8).extractLsb' 6 2 = w.extractLsb' 22 2 := by
      ext k hk
      simp [show 6 + k < 8 by omega, ← Nat.add_assoc]
    exact beq_iff_eq.2 (hnested.trans hreserved)
  | openDevice _ _ | closeDevice | applyMode1 _ | setFrequency _ | setChannel _ _ _ => rfl

/-- R302, R304: no reserved bit of a well-formed instruction's word is set. -/
theorem illegalWord_encode {i : Instr} (h : i.WellFormed) : Machine.illegalWord (encode i) = false := by
  cases i <;> simp only [Machine.illegalWord, encode, BitVec.extractLsb'_append_eq_of_le,
    BitVec.extractLsb'_append_eq_of_add_le, Nat.reduceLeDiff, Nat.reduceSub, BitVec.extractLsb'_eq_self]
  case applyMode2 req8 =>
    have hreserved : req8.extractLsb' 6 2 = 0#2 := beq_iff_eq.1 h
    rw [hreserved]
    rfl
  all_goals rfl

/-- Settles O1: the word of a well-formed instruction selects its row, and its operand fields are the operands. -/
theorem decodeOfEncodeIsTheInstruction : Obligations.DecodeOfEncodeIsTheInstruction := fun i hwf =>
  decode_eq_ok_iff.2 ⟨selects_encode hwf, withOperandsOf_encode i⟩

/-- Settles O2: a word that decodes to `i` selects the row of `i`, so it is the word of the operands read from it. -/
theorem encodeOfDecodeIsTheWord : Obligations.EncodeOfDecodeIsTheWord := by
  intro w i h
  obtain ⟨hsel, hi⟩ := decode_eq_ok_iff.1 h
  rw [← hi]
  exact ⟨encode_withOperandsOf hsel, wellFormed_withOperandsOf hsel⟩

/-- Settles O4: by `decode_eq_ok_iff`, for an instruction of each row. -/
theorem wordSelectsRowIffItDecodesToIt : Obligations.WordSelectsRowIffItDecodesToIt := by
  intro w
  refine ⟨fun r hr => ⟨fun hsel => ?_, ?_⟩, fun hnone => ?_⟩
  · obtain ⟨i, rfl⟩ := Instr.exists_row_eq r hr
    exact ⟨i.withOperandsOf w, decode_of_selects (beq_iff_eq.2 hsel), i.row_withOperandsOf w⟩
  · rintro ⟨i, hi, rfl⟩
    exact beq_iff_eq.1 (selects_of_decode hi)
  · cases h : decode w with
    | ok i => exact absurd (beq_iff_eq.1 (selects_of_decode h)) (hnone i.row i.row_mem)
    | error e => exact ⟨e, rfl⟩

/-- Settles O3: the eight closed words of V-E are decoded by evaluation. -/
theorem sampleWordsDecode : Obligations.SampleWordsDecode := by
  unfold Obligations.SampleWordsDecode
  decide

end Sys2Proof
end

section
/-! The command port and the end of a command (30_encoding R300, R304; 40_sequencer R403, R412, R413). -/

namespace Sys2Proof.Machine

/-! ### Illegal words -/

/-- R304: an illegal word is the word of no instruction, so it does not decode. -/
theorem decode_error_of_illegalWord {w : CmdWord} (h : illegalWord w = true) : ∃ e, decode w = .error e := by
  cases hd : decode w with
  | error e => exact ⟨e, rfl⟩
  | ok i =>
    obtain ⟨hw, hwf⟩ := encodeOfDecodeIsTheWord w i hd
    rw [← hw, illegalWord_encode hwf] at h
    cases h

/-- Settles O5: the decoder refuses the word, and acceptance of a refused word is the failure response alone. -/
theorem illegalWordFailsIllegalCommand : Obligations.IllegalWordFailsIllegalCommand := by
  intro s word rest hr hp hc hill
  obtain ⟨e, he⟩ := decode_error_of_illegalWord hill
  refine ⟨(s.latch word rest).raise .illegalCommand, ?_, State.raise_respondsFail _ _, rfl, ⟨rfl, rfl⟩, rfl⟩
  rw [step_idle hr hp, acceptCommand, hc]
  exact acceptWord_error he

/-! ### What finishing a micro-operation leaves alone -/

section finish
variable (op : MicroOp) (r : BusResponse) (s : State)

@[simp] theorem MicroOp.finish_params : (op.finish r s).params = s.params := by
  unfold MicroOp.finish; split <;> simp
@[simp] theorem MicroOp.finish_cmds : (op.finish r s).cmds = s.cmds := by
  unfold MicroOp.finish; split <;> simp
@[simp] theorem MicroOp.finish_cmd : (op.finish r s).cmd = s.cmd := by
  unfold MicroOp.finish; split <;> simp
@[simp] theorem MicroOp.finish_script : (op.finish r s).script = s.script := by
  unfold MicroOp.finish; split <;> simp

/-- R412, R413: a micro-operation of an executing command ends the command exactly if it puts a response out. -/
theorem MicroOp.finish_idle_iff_rspValid (hp : s.phase = .busy) (hv : s.rspValid = false) :
    (op.finish r s).phase = .idle ↔ (op.finish r s).rspValid = true := by
  cases hs : op.succeeds r with
  | false =>
    rw [MicroOp.finish_failure hs]
    exact iff_of_true rfl rfl
  | true =>
    rw [MicroOp.finish_success hs]
    have hresp := State.advance_response (op.effect r s) op
    split at hresp
    · obtain ⟨hidle, hvalid, -⟩ := hresp
      exact iff_of_true hidle hvalid
    · obtain ⟨hphase, hvalid, -⟩ := hresp
      simp [hphase, hvalid, hp, hv]

end finish

/-! ### One step of an executing command -/

/-- A step of an executing command waits for the bus, or finishes the micro-operation at `upc`. -/
theorem step_busy_waits_or_finishes {s t : State} (hr : s.rst = false) (hp : s.phase = .busy) (h : step s = .next t) :
    t = s ∨ ∃ op r e, t = MicroOp.finish op r (s.withEnv e) := by
  rw [step_busy hr hp] at h
  obtain ⟨-, h'⟩ | ⟨-, -, -, -, h'⟩ | ⟨-, -, -, -, h'⟩ | ⟨op, r, e, -, -, -, h'⟩ := runMicroOp_cases s <;>
    rw [h] at h' <;> cases h'
  · exact .inl rfl
  · exact .inr ⟨op, r, e, rfl⟩

theorem exec_params {i : Instr} {s t : State} (h : exec i s = .next t) : t.params = s.params := by
  obtain ⟨c, -, rfl⟩ | ⟨-, rfl⟩ := exec_cases h <;> rfl

/-- R100, R8: the parameters are configuration. -/
theorem step_params {s t : State} (h : step s = .next t) : t.params = s.params := by
  obtain ⟨-, rfl⟩ | ⟨-, -, -, rfl⟩ | ⟨-, -, word, rest, e, -, -, rfl⟩ | ⟨-, -, word, rest, i, -, -, he⟩ |
    ⟨-, -, -, -, -, rfl⟩ | ⟨-, -, op, r, e, -, -, -, rfl⟩ := step_cases h
  · rfl
  · rfl
  · rfl
  · exact (exec_params he).trans (State.latch_params s word rest)
  · rfl
  · exact MicroOp.finish_params op r _

/-- Settles O7: no acceptance and no micro-operation writes the parameters, and no micro-operation the command port,
the latched word or the script. -/
theorem noCommandAcceptedWhileBusy : Obligations.NoCommandAcceptedWhileBusy := by
  refine fun s t h => ⟨step_params h, fun hr hp => ?_⟩
  obtain rfl | ⟨op, r, e, rfl⟩ := step_busy_waits_or_finishes hr hp h
  · exact ⟨rfl, rfl, rfl⟩
  · exact ⟨MicroOp.finish_cmds .., MicroOp.finish_cmd .., MicroOp.finish_script ..⟩

/-- Settles O9: under the invariant no response is out before the step, and a micro-operation that ends the command
puts one out. -/
theorem executingCommandEndsWithOneResponse : Obligations.ExecutingCommandEndsWithOneResponse := by
  intro s t hi hr hp h
  obtain ⟨-, -, -, hv⟩ := hi.1 hp
  refine ⟨hv, ?_⟩
  obtain rfl | ⟨op, r, e, rfl⟩ := step_busy_waits_or_finishes hr hp h
  · simp [hp, hv]
  · exact MicroOp.finish_idle_iff_rspValid op r (s.withEnv e) hp hv

end Sys2Proof.Machine
end

section
/-! MODE1 requests (30_encoding R305 to R307, R313; 41_mode_rmw R422). -/

namespace Sys2Proof.Machine

/-! ### R307: legality -/

theorem req1Legal_iff {p : Params} {req : BitVec 16} : req1Legal p req = true ↔
    ∀ k < 8, k ≠ p.m1.restart.val → ¬ (req.getLsbD (2 * k) = true ∧ req.getLsbD (2 * k + 1) = true) := by
  simp only [req1Legal, slotOn, slotOff, List.all_eq_true, List.mem_range, Bool.or_eq_true, beq_iff_eq,
    Bool.not_eq_true', Bool.eq_false_iff, ne_eq, Bool.and_eq_true]
  exact forall₂_congr fun k _ => or_iff_not_imp_left

/-- A bound block rejects an illegal request with no transaction. -/
theorem exec_applyMode1_illegal {s : State} {req : BitVec 16} (hb : s.bound = true)
    (hl : req1Legal s.params req = false) : exec (.applyMode1 req) s = .next (s.raise .illegalArgument) := by
  have hcheck : preCheck s.params s.bound (.applyMode1 req) = some .illegalArgument := by
    simp [preCheck, Instr.wellFormed, hb, hl]
  rw [exec_eq, hcheck]

/-! ### R422: the bits of the byte written back -/

/-- Bit k of `m1`: `(w & ~clr) | set`, slot by slot. -/
theorem getLsbD_m1 (p : Params) (w : Byte) (req : BitVec 16) {k : Nat} (hk : k < 8) :
    (m1 p w req).getLsbD k =
      ((w.getLsbD k && !(k != p.m1.restart.val && slotOff req k)) ||
        (slotOn req k || (k == p.m1.restart.val && slotOff req k))) := by
  simp only [m1, m1Set, m1Clr, BitVec.getLsbD_or, BitVec.getLsbD_and, BitVec.getLsbD_not, getLsbD_maskOf, hk,
    decide_true, Bool.true_and]

/-- Settles O14: the pre-check of APPLY_MODE1 is R307's, and the two last clauses are bits of `m1`. -/
theorem mode1RequestLegality : Obligations.Mode1RequestLegality := by
  refine ⟨?_, ?_, ?_, ?_⟩
  · intro s req k hb hk hne hon hoff
    have hl : req1Legal s.params req = false :=
      Bool.eq_false_iff.2 fun hl => req1Legal_iff.1 hl k hk hne ⟨hon, hoff⟩
    exact ⟨_, exec_applyMode1_illegal hb hl, State.raise_respondsFail _ _, rfl⟩
  · intro s req hb hslots
    exact ⟨_, exec_applyMode1_legal hb (req1Legal_iff.2 hslots), State.accepted_phase _ _⟩
  · intro p w req hon _
    rw [getLsbD_m1 p w req p.m1.restart.isLt, slotOn, hon]
    simp
  · intro p w req k hk hon hoff
    rw [getLsbD_m1 p w req hk, slotOn, slotOff, hon, hoff]
    simp

/-! ### R313: a braced set -/

theorem mode1SetConsistent_iff {items : List Mode1Item} : mode1SetConsistent items = true ↔
    ¬ ∃ x ∈ items, ∃ y ∈ items, x.flag = y.flag ∧ x.on ≠ y.on := by
  simp [mode1SetConsistent, imp_iff_not_or]

/-- R313: the OR of the R306 masks of a set's items. -/
def mode1SetMask (p : Params) (items : List Mode1Item) : BitVec 16 := items.foldl (fun acc x => acc ||| x.mask p) 0

theorem getLsbD_mode1SetMask (p : Params) (items : List Mode1Item) (j : Nat) :
    (mode1SetMask p items).getLsbD j = true ↔ ∃ x ∈ items, (x.mask p).getLsbD j = true := by
  have general : ∀ (l : List Mode1Item) (acc : BitVec 16),
      (l.foldl (fun acc x => acc ||| x.mask p) acc).getLsbD j =
        (acc.getLsbD j || l.any fun x => (x.mask p).getLsbD j) := by
    intro l
    induction l with
    | nil => simp
    | cons x l ih =>
      intro acc
      rw [List.foldl_cons, ih, BitVec.getLsbD_or, List.any_cons, Bool.or_assoc]
  rw [mode1SetMask, general]
  simp

theorem getLsbD_one_shiftLeft (i j : Nat) : (1#16 <<< i).getLsbD j = (decide (j < 16) && decide (j = i)) := by
  simp only [BitVec.getLsbD_shiftLeft, BitVec.getLsbD_one]
  by_cases h : j = i
  · subst h; simp
  · simp [h]; omega

/-- R305, R306: an item's mask is the ON or the OFF bit of its flag's slot. -/
theorem Mode1Item.mask_eq (p : Params) (x : Mode1Item) :
    x.mask p = 1#16 <<< (2 * (x.flag.position p).val + (!x.on).toNat) := by
  cases hon : x.on <;> simp [Mode1Item.mask, hon, req1On, req1Off]

theorem Mode1Item.getLsbD_mask (p : Params) (x : Mode1Item) (off : Bool) {k : Nat} (hk : k < 8) :
    (x.mask p).getLsbD (2 * k + off.toNat) = true ↔ (x.flag.position p).val = k ∧ x.on = !off := by
  rw [Mode1Item.mask_eq, getLsbD_one_shiftLeft]
  cases x.on <;> cases off <;> simp <;> omega

/-- The request of a set asks for ON (OFF) in slot k exactly if an item does. -/
theorem getLsbD_mode1SetMask_slot (p : Params) (items : List Mode1Item) (off : Bool) {k : Nat} (hk : k < 8) :
    (mode1SetMask p items).getLsbD (2 * k + off.toNat) = true ↔
      ∃ x ∈ items, (x.flag.position p).val = k ∧ x.on = !off := by
  simp only [getLsbD_mode1SetMask, Mode1Item.getLsbD_mask p _ off hk]

/-- The flags in the order of R8's table. -/
def Mode1Flag.all : List Mode1Flag := [.allcall, .sub3, .sub2, .sub1, .sleep, .ai, .extclk, .restart]

theorem Mode1Flag.mem_all (f : Mode1Flag) : f ∈ Mode1Flag.all := by cases f <;> decide

theorem Mode1Flag.map_position_all (p : Params) : Mode1Flag.all.map (Mode1Flag.position p) = p.m1.positions := rfl

/-- R8: distinct positions are positions of distinct flags. -/
theorem Mode1Flag.position_injective {p : Params} (h : p.m1.positions.Nodup) :
    Function.Injective (Mode1Flag.position p) := fun f g hfg =>
  List.inj_on_of_nodup_map (Mode1Flag.map_position_all p ▸ h) f.mem_all g.mem_all hfg

/-- A set without a conflict names no slot's ON and OFF bit both, so its request is legal (R307). -/
theorem req1Legal_mode1SetMask {p : Params} {items : List Mode1Item} (hp : p.m1.positions.Nodup)
    (h : mode1SetConsistent items = true) : req1Legal p (mode1SetMask p items) = true := by
  refine req1Legal_iff.2 fun k hk _ ⟨hon, hoff⟩ => ?_
  obtain ⟨x, hx, hxk, hxon⟩ := (getLsbD_mode1SetMask_slot p items false hk).1 hon
  obtain ⟨y, hy, hyk, hyoff⟩ := (getLsbD_mode1SetMask_slot p items true hk).1 hoff
  have hflag : x.flag = y.flag := Mode1Flag.position_injective hp (Fin.ext (hxk.trans hyk.symm))
  exact mode1SetConsistent_iff.1 h ⟨x, hx, y, hy, hflag, by simp [hxon, hyoff]⟩

/-- Settles O60: the bits of the OR of the items' masks, and legality because the flags' positions are distinct. -/
theorem bracedMode1SetNamesExactlyItsSlots : Obligations.BracedMode1SetNamesExactlyItsSlots := by
  intro p items hp
  split
  · next hconflict =>
    have hc : ¬ mode1SetConsistent items = true := fun h => mode1SetConsistent_iff.1 h hconflict
    exact if_neg hc
  · next hfree =>
    have hc : mode1SetConsistent items = true := mode1SetConsistent_iff.2 hfree
    exact ⟨mode1SetMask p items, if_pos hc, req1Legal_mode1SetMask hp hc,
      fun k hk => ⟨getLsbD_mode1SetMask_slot p items false hk, getLsbD_mode1SetMask_slot p items true hk⟩⟩

end Sys2Proof.Machine
end

section
/-! The scripts (40_sequencer R403): where a WB stands, how long a script is, and that it may run from its start. -/

namespace Sys2Proof.Machine

/-! ### The script of a MODE request -/

/-- R403: the script of a MODE1 or MODE2 request is one write, or pointer write, read and write-back of one register. -/
def IsRequestScript (l : List MicroOp) : Prop :=
  ∃ a, l = [.ptr a] ∨ l = [.wk a (.const 0x00)] ∨ ∃ f, l = [.ptr a, .rd, .wb a f]

theorem isRequestScript_scriptEmpty (p : Params) (a : Byte) : IsRequestScript (scriptEmpty p a) := by
  obtain hs | hs := scriptEmpty_cases p a
  · exact ⟨a, .inl hs⟩
  · exact ⟨a, .inr (.inl hs)⟩

theorem isRequestScript_scriptRmw1 (p : Params) (req : BitVec 16) : IsRequestScript (scriptRmw1 p req) := by
  by_cases h0 : req = 0
  · rw [h0, scriptRmw1_zero]; exact isRequestScript_scriptEmpty p _
  · exact ⟨_, .inr (.inr ⟨_, scriptRmw1_of_ne h0⟩)⟩

theorem isRequestScript_scriptRmw2 (p : Params) (req : BitVec 8) : IsRequestScript (scriptRmw2 p req) := by
  by_cases h0 : req = 0
  · rw [h0, scriptRmw2_zero]; exact isRequestScript_scriptEmpty p _
  · exact ⟨_, .inr (.inr ⟨_, scriptRmw2_of_ne h0⟩)⟩

theorem IsRequestScript.length_bounds {l : List MicroOp} (h : IsRequestScript l) : 0 < l.length ∧ l.length ≤ 3 := by
  obtain ⟨a, rfl | rfl | ⟨f, rfl⟩⟩ := h <;> simp

/-! ### R403: a WB stands behind an RD, and that behind a PTR to the same register -/

/-- Each WB of the list writes back what the two micro-operations before it read. -/
def WriteBacksFollowReads (l : List MicroOp) : Prop :=
  ∀ (j : Nat) (a : Byte) (f : WorkFn), l[j]? = some (.wb a f) →
    ∃ k, j = k + 2 ∧ l[k]? = some (.ptr a) ∧ l[k + 1]? = some .rd

theorem WriteBacksFollowReads.append {l m : List MicroOp} (hl : WriteBacksFollowReads l)
    (hm : WriteBacksFollowReads m) : WriteBacksFollowReads (l ++ m) := by
  intro j a f h
  by_cases hj : j < l.length
  · rw [List.getElem?_append_left hj] at h
    obtain ⟨k, rfl, hptr, hrd⟩ := hl j a f h
    exact ⟨k, rfl, by rwa [List.getElem?_append_left (by omega)], by rwa [List.getElem?_append_left (by omega)]⟩
  · rw [List.getElem?_append_right (by omega)] at h
    obtain ⟨k, hk, hptr, hrd⟩ := hm _ a f h
    refine ⟨l.length + k, by omega, ?_, ?_⟩
    · rwa [List.getElem?_append_right (by omega), Nat.add_sub_cancel_left]
    · rwa [List.getElem?_append_right (by omega), Nat.add_assoc, Nat.add_sub_cancel_left]

theorem WriteBacksFollowReads.of_not_readsW {l : List MicroOp} (h : ∀ op ∈ l, op.readsW = false) :
    WriteBacksFollowReads l := fun _ _ _ hj => absurd (h _ (List.mem_of_getElem? hj)) (by simp [MicroOp.readsW])

theorem writeBacksFollowReads_rmw (a : Byte) (f : WorkFn) : WriteBacksFollowReads [.ptr a, .rd, .wb a f]
  | 0, _, _, h => by cases h
  | 1, _, _, h => by cases h
  | 2, _, _, h => by cases h; exact ⟨0, rfl, rfl, rfl⟩
  | _ + 3, _, _, h => by cases h

theorem IsRequestScript.writeBacksFollowReads {l : List MicroOp} (h : IsRequestScript l) :
    WriteBacksFollowReads l := by
  obtain ⟨a, rfl | rfl | ⟨f, rfl⟩⟩ := h
  · exact .of_not_readsW (by simp [MicroOp.readsW])
  · exact .of_not_readsW (by simp [MicroOp.readsW])
  · exact writeBacksFollowReads_rmw a f

theorem writeBacksFollowReads_scriptRmw1 (p : Params) (req : BitVec 16) :
    WriteBacksFollowReads (scriptRmw1 p req) := (isRequestScript_scriptRmw1 p req).writeBacksFollowReads

theorem writeBacksFollowReads_scriptRmw2 (p : Params) (req : BitVec 8) :
    WriteBacksFollowReads (scriptRmw2 p req) := (isRequestScript_scriptRmw2 p req).writeBacksFollowReads

theorem writeBacksFollowReads_scriptSf (p : Params) : WriteBacksFollowReads (scriptSf p) :=
  (((writeBacksFollowReads_scriptRmw1 p _).append (.of_not_readsW (by simp [MicroOp.readsW]))).append
    (writeBacksFollowReads_scriptRmw1 p _)).append (writeBacksFollowReads_scriptRmw2 p _)

theorem writeBacksFollowReads_scriptOf (p : Params) (i : Instr) : WriteBacksFollowReads (scriptOf p i) := by
  cases i with
  | openDevice path addr7 =>
    have hbind : WriteBacksFollowReads [.bopen path, .bbind addr7] := .of_not_readsW (by simp [MicroOp.readsW])
    exact (((hbind.append (writeBacksFollowReads_scriptRmw1 p 0)).append (writeBacksFollowReads_scriptRmw2 p 0)).append
      (writeBacksFollowReads_scriptRmw2 p req2Tp)).append (writeBacksFollowReads_scriptSf p)
  | applyMode1 req16 => exact writeBacksFollowReads_scriptRmw1 p req16
  | applyMode2 req8 => exact writeBacksFollowReads_scriptRmw2 p req8
  | setFrequency freq => exact writeBacksFollowReads_scriptSf p
  | closeDevice | setChannel id on off =>
    exact .of_not_readsW (by simp [scriptOf, scriptClose, scriptChannel, MicroOp.readsW])

/-- Settles O42: the property holds of the pieces a script is made of, and of what is appended from them. -/
theorem writeBackFollowsPointerAndRead : Obligations.WriteBackFollowsPointerAndRead :=
  fun p i => writeBacksFollowReads_scriptOf p i

/-! ### The length of a script -/

@[simp] theorem length_scriptEmpty (p : Params) (a : Byte) : (scriptEmpty p a).length = 1 := by
  obtain hs | hs := scriptEmpty_cases p a <;> rw [hs] <;> rfl

@[simp] theorem length_scriptSf (p : Params) : (scriptSf p).length = 10 := by simp [scriptSf_eq]

@[simp] theorem length_scriptOpen (p : Params) (path : Token) (addr7 : BitVec 7) :
    (scriptOpen p path addr7).length = 17 := by
  rw [scriptOpen, scriptRmw1_zero, scriptRmw2_zero, scriptRmw2_of_ne (by decide)]
  simp

/-- R415: the longest script is OPEN's, and no script is empty. -/
theorem length_scriptOf (p : Params) (i : Instr) :
    0 < (scriptOf p i).length ∧ (scriptOf p i).length ≤ 17 := by
  cases i with
  | openDevice path addr7 => simp [scriptOf]
  | closeDevice | setChannel id on off => simp [scriptOf, scriptClose, scriptChannel]
  | applyMode1 req16 => exact (isRequestScript_scriptRmw1 p req16).length_bounds.imp_right fun h => h.trans (by omega)
  | applyMode2 req8 => exact (isRequestScript_scriptRmw2 p req8).length_bounds.imp_right fun h => h.trans (by omega)
  | setFrequency freq => simp [scriptOf]

/-! ### A script whose command passed its pre-checks may run (R102, R104) -/

/-- Before a rest that may run with or without a working byte, the script of a request may too: it reads none but its
own. -/
theorem IsRequestScript.tailOk_append {l rest : List MicroOp} (hl : IsRequestScript l)
    (h : ∀ fresh, scriptTailOk fresh true rest = true) (fresh : Bool) :
    scriptTailOk fresh true (l ++ rest) = true := by
  obtain ⟨a, rfl | rfl | ⟨f, rfl⟩⟩ := hl <;> simp [scriptTailOk, h]

theorem IsRequestScript.tailOk {l : List MicroOp} (hl : IsRequestScript l) (fresh : Bool) :
    scriptTailOk fresh true l = true := by
  simpa using hl.tailOk_append (rest := []) (fun _ => rfl) fresh

theorem scriptTailOk_scriptSf (p : Params) (fresh : Bool) : scriptTailOk fresh true (scriptSf p) = true := by
  simp [scriptSf_eq, scriptTailOk]

/-- OPEN's script starts unbound and binds before its first register transaction. -/
theorem scriptTailOk_scriptOpen (p : Params) (path : Token) (addr7 : BitVec 7) (fresh : Bool) :
    scriptTailOk fresh false (scriptOpen p path addr7) = true := by
  simp only [scriptOpen, List.append_assoc, List.cons_append, List.nil_append, scriptTailOk, Bool.not_false,
    Bool.true_and]
  exact (isRequestScript_scriptRmw1 p 0).tailOk_append ((isRequestScript_scriptRmw2 p 0).tailOk_append
    ((isRequestScript_scriptRmw2 p req2Tp).tailOk_append (scriptTailOk_scriptSf p))) fresh

end Sys2Proof.Machine
end

section
/-! Acceptance (40_sequencer R400, R401): the pre-checks and the start of a script. -/

namespace Sys2Proof.Machine

/-- Settles O6: acceptance of the word at the head of the port, and the decoder's answer. -/
theorem stepRunsDecodedCommand : Obligations.StepRunsDecodedCommand := by
  intro s word rest i hr hp hc hd
  rw [step_idle hr hp, acceptCommand, hc]
  exact acceptWord_ok hd

/-! ### R401: the order of the pre-checks -/

theorem preCheck_illFormed {p : Params} {bound : Bool} {i : Instr} (h : i.wellFormed = false) :
    preCheck p bound i = some .illegalCommand := by simp [preCheck, h]

/-- R401, item 2: a command that passes its pre-checks is OPEN and the block unbound, or another one and the block
bound. -/
theorem bound_of_preCheck_none {p : Params} {bound : Bool} {i : Instr} (h : preCheck p bound i = none) :
    (bound = false ∧ ∃ path addr7, i = .openDevice path addr7) ∨
    (bound = true ∧ ∀ path addr7, i ≠ .openDevice path addr7) := by
  have hwf : i.WellFormed := by
    by_contra hwf
    rw [preCheck_illFormed (by simpa using hwf)] at h; cases h
  cases bound with
  | true => exact .inr ⟨rfl, by rintro path addr7 rfl; cases h⟩
  | false =>
    refine .inl ⟨rfl, ?_⟩
    by_contra hne
    rw [preCheck_unbound hwf fun path addr7 hi => hne ⟨path, addr7, hi⟩] at h; cases h

/-- Acceptance answers with the first pre-check that applies, or is BUSY; either way without a transaction. -/
theorem exec_answers_preCheck (i : Instr) (s : State) :
    ∃ t, exec i s = .next t ∧ t.env = s.env ∧ (∀ c, preCheck s.params s.bound i = some c → t.RespondsFail c) ∧
      (preCheck s.params s.bound i = none → t.phase = .busy) := by
  refine ⟨_, exec_eq i s, ?_⟩
  cases preCheck s.params s.bound i with
  | some c => exact ⟨rfl, by rintro _ ⟨⟩; exact s.raise_respondsFail c, by rintro ⟨⟩⟩
  | none => exact ⟨rfl, by rintro _ ⟨⟩, fun _ => rfl⟩

/-- Settles O10: acceptance follows `preCheck`, whose value is computed for each command and binding. -/
theorem preChecksRunInOrder : Obligations.PreChecksRunInOrder := by
  refine ⟨fun word e s he => ⟨_, acceptWord_error he, rfl, s.raise_respondsFail _⟩, fun i s => ?_⟩
  obtain ⟨t, hexec, henv, hfail, hbusy⟩ := exec_answers_preCheck i s
  refine ⟨t, hexec, henv, fun hwf => hfail _ (preCheck_illFormed hwf), ?_,
    fun hwf hne hb => hfail _ (hb ▸ preCheck_unbound hwf hne), ?_, ?_, ?_⟩
  · rintro path addr7 rfl
    split
    · next hb => exact hfail _ (by simp [preCheck, Instr.wellFormed, hb])
    · next hb => exact hbusy (by simp [preCheck, Instr.wellFormed, hb])
  · rintro req rfl hb
    split
    · next hl => exact hbusy (by simp [preCheck, Instr.wellFormed, hb, hl])
    · next hl => exact hfail _ (by simp [preCheck, Instr.wellFormed, hb, hl])
  · rintro freq rfl hb
    split
    · next h0 => exact hfail _ (by simp [preCheck, Instr.wellFormed, hb, h0])
    · next h0 => exact hbusy (by simpa [preCheck, Instr.wellFormed, hb] using h0)
  · rintro (rfl | ⟨req, rfl, hwf⟩ | ⟨id, on, off, rfl⟩) hb
    · exact hbusy (by simp [preCheck, Instr.wellFormed, hb])
    · exact hbusy (by simp [preCheck, hwf, hb])
    · exact hbusy (by simp [preCheck, Instr.wellFormed, hb])

/-! ### R400: the start of the script -/

theorem neededPrescale_eq_none {p : Params} {i : Instr} (hf : ∀ freq, i ≠ .setFrequency freq)
    (ho : ∀ path addr7, i ≠ .openDevice path addr7) : neededPrescale p i = none := by
  cases hv : neededPrescale p i with
  | none => rfl
  | some v =>
    obtain ⟨freq, hi⟩ | ⟨path, addr7, hi⟩ := command_of_neededPrescale hv
    · exact absurd hi (hf freq)
    · exact absurd hi (ho path addr7)

/-- Settles O12: a pre-check's response leaves IDLE, so the state is the accepted one. -/
theorem acceptedCommandStartsItsScript : Obligations.AcceptedCommandStartsItsScript := by
  intro i s t _ h hbusy
  obtain ⟨c, -, rfl⟩ | ⟨-, rfl⟩ := exec_cases h
  · cases hbusy
  · refine ⟨rfl, rfl, rfl, ⟨rfl, rfl⟩, ⟨rfl, rfl, rfl, rfl⟩, rfl, rfl, rfl, rfl, rfl, ?_, ?_, fun hf ho => ?_⟩
    · rintro freq rfl; rfl
    · rintro path addr7 rfl; rfl
    · rw [State.accepted_p, neededPrescale_eq_none hf ho, Option.getD_none]

end Sys2Proof.Machine
end

section
/-! One micro-operation (40_sequencer R402, R404 to R411, R413, R416): its request, its one transaction, its failure. -/

namespace Sys2Proof.Machine

/-! ### R402: the outstanding request -/

theorem State.outstanding_idle {s : State} (hp : s.phase = .idle) : s.outstanding = none := by
  simp [State.outstanding, hp]

theorem State.outstanding_busy {s : State} {op : MicroOp} (hp : s.phase = .busy) (ho : s.script[s.upc]? = some op) :
    s.outstanding = some (op.request s) := by
  simp [State.outstanding, hp, ho]

theorem State.busy_of_outstanding {s : State} {q : BusRequest} (h : s.outstanding = some q) : s.phase = .busy := by
  cases hp : s.phase with
  | busy => rfl
  | idle => rw [State.outstanding_idle hp] at h; cases h

/-- Settles O15: the outstanding request is `MicroOp.request` of the micro-operation at `upc`. -/
theorem eachMicroOpIssuesItsRequest : Obligations.EachMicroOpIssuesItsRequest := by
  intro s hp
  have issued {op : MicroOp} (ho : s.script[s.upc]? = some op) : s.outstanding = some (op.request s) :=
    State.outstanding_busy hp ho
  exact ⟨fun _ => issued, fun _ _ => issued, fun _ => issued, issued, fun _ _ => issued, fun _ _ => issued,
    fun _ _ _ _ _ => issued, fun _ => issued, fun _ => issued, issued⟩

/-! ### What finishing a micro-operation does to `upc` and to the environment -/

section finish
variable (op : MicroOp) (r : BusResponse) (s : State)

@[simp] theorem MicroOp.finish_env : (op.finish r s).env = s.env := by
  unfold MicroOp.finish; split <;> simp

theorem MicroOp.finish_upc : (op.finish r s).upc = if op.succeeds r = true then s.upc + 1 else s.upc := by
  unfold MicroOp.finish; split <;> simp

theorem MicroOp.withEnv_effect (f : Env) : (op.effect r s).withEnv f = op.effect r (s.withEnv f) := by
  cases op <;> rfl

theorem MicroOp.withEnv_spoil (f : Env) : (op.spoil s).withEnv f = op.spoil (s.withEnv f) := by
  cases op <;> rfl

theorem State.withEnv_complete (f : Env) : (s.complete op).withEnv f = (s.withEnv f).complete op := by
  cases op <;> rfl

theorem State.withEnv_advance (f : Env) : (s.advance op).withEnv f = (s.withEnv f).advance op := by
  by_cases hl : s.upc + 1 = s.script.length
  · rw [State.advance_last hl, State.withEnv_complete, State.advance_last (s := s.withEnv f) hl]; rfl
  · rw [State.advance_inner hl, State.advance_inner (s := s.withEnv f) hl]; rfl

/-- R416: what a micro-operation does to the block does not depend on what is behind the bus. -/
theorem MicroOp.withEnv_finish (f : Env) : (op.finish r s).withEnv f = op.finish r (s.withEnv f) := by
  cases hs : op.succeeds r with
  | false => rw [MicroOp.finish_failure hs, MicroOp.finish_failure hs, ← MicroOp.withEnv_spoil]; rfl
  | true =>
    rw [MicroOp.finish_success hs, MicroOp.finish_success hs, ← MicroOp.withEnv_effect, State.withEnv_advance]

end finish

/-! ### R402, R219: at most the outstanding transaction -/

theorem exec_env {i : Instr} {s t : State} (h : exec i s = .next t) : t.env = s.env := by
  obtain ⟨c, -, rfl⟩ | ⟨-, rfl⟩ := exec_cases h <;> rfl

theorem State.blockTxns_blockReset (s : State) : s.blockReset.env.blockTxns = s.env.blockTxns := by
  cases hp : s.phase <;> simp [Env.blockTxns, hp]

/-- Settles O8: reset, acceptance and waiting add nothing, and a finished micro-operation the request it had
outstanding. -/
theorem stepPerformsOnlyTheOutstandingTransaction : Obligations.StepPerformsOnlyTheOutstandingTransaction := by
  intro s t h
  obtain ⟨-, rfl⟩ | ⟨-, -, -, rfl⟩ | ⟨-, -, word, rest, e, -, -, rfl⟩ | ⟨-, -, word, rest, i, -, -, he⟩ |
    ⟨-, -, op, -, -, rfl⟩ | ⟨hr, hp, op, r, e, ho, -, ha, rfl⟩ := step_cases h
  · exact .inl s.blockTxns_blockReset
  · exact .inl rfl
  · exact .inl rfl
  · exact .inl (congrArg Env.blockTxns (exec_env (s := s.latch word rest) he))
  · exact .inl rfl
  · refine .inr ⟨op.request s, r, State.outstanding_busy hp ho, hr, ?_⟩
    rw [MicroOp.finish_env]
    exact Env.blockTxns_answer ha

/-! ### R413: failure -/

theorem MicroOp.spoil_chan {op : MicroOp} (h : ∀ path, op ≠ .bopen path) (s : State) : (op.spoil s).chan = s.chan := by
  cases op with
  | bopen path => exact absurd rfl (h path)
  | ptr _ | wk _ _ | rd | wb _ _ | w5 _ _ _ _ _ | bbind _ | bclose => rfl

/-- Settles O19: the step is the abort, whose frame is that of `raise` and `spoil`. -/
theorem failingMicroOpAbortsTheCommand : Obligations.FailingMicroOpAbortsTheCommand := by
  intro s op r e hr hp ho hw ha hs
  refine ⟨_, step_fails hr hp ho hw ha hs, State.raise_respondsFail _ _, by simp, ?_, State.outstanding_idle rfl,
    by simp, by simp [SameCommandSide], by simp, by simp, by simp, by simp, fun hne => ?_⟩
  · simpa using Env.blockTxns_answer ha
  · rw [State.raise_chan, MicroOp.spoil_chan hne]; rfl

/-! ### R416, R221: non-interference -/

/-- Settles O37: both steps finish the same micro-operation with the same response, and `MicroOp.withEnv_finish`. -/
theorem blockSeesTheBusOnlyThroughItsResponse : Obligations.BlockSeesTheBusOnlyThroughItsResponse := by
  intro s t q r e1 e2 f1 f2 hr hq ha1 ha2 h
  have hp := State.busy_of_outstanding hq
  obtain ⟨op, ho, rfl⟩ := State.eq_request_of_outstanding hq
  rw [step_busy (s := s.withEnv e1) hr hp] at h
  obtain ⟨-, h'⟩ | ⟨_, -, -, -, h'⟩ | ⟨op', ho', -, ha', -⟩ | ⟨op', r', f', ho', hw, ha', h'⟩ :=
    runMicroOp_cases (s.withEnv e1)
  · rw [h'] at h; cases h
  · rw [h'] at h; cases h
  · cases ho.symm.trans ho'
    cases ha1.symm.trans ha'
  · cases ho.symm.trans ho'
    cases ha1.symm.trans ha'
    cases h.symm.trans h'
    refine ⟨MicroOp.finish_env .., ?_⟩
    rw [MicroOp.withEnv_finish]
    exact step_answered (s := s.withEnv e2) hr hp ho hw ha2

end Sys2Proof.Machine
end

section
/-! The invariant and what follows from it (40_sequencer R400 to R403, R412, R413, R415, R417): every step keeps it,
`upc` is bounded, and an answered command ends. -/

namespace Sys2Proof.Machine

/-! ### The invariant is kept -/

theorem State.Inv.of_idle {s : State} (hp : s.phase = .idle) (hw : s.env.wf = true) : s.Inv :=
  ⟨fun hbusy => (by cases hp.symm.trans hbusy), hw⟩

/-- A script whose command passed its pre-checks may run from its start. -/
theorem scriptTailOk_scriptOf {p : Params} {bound : Bool} {i : Instr} (h : preCheck p bound i = none) :
    scriptTailOk false bound (scriptOf p i) = true := by
  obtain ⟨rfl, path, addr7, rfl⟩ | ⟨rfl, hne⟩ := bound_of_preCheck_none h
  · exact scriptTailOk_scriptOpen p path addr7 false
  · cases i with
    | openDevice path addr7 => exact absurd rfl (hne path addr7)
    | closeDevice | setChannel id on off => rfl
    | applyMode1 req16 => exact (isRequestScript_scriptRmw1 p req16).tailOk false
    | applyMode2 req8 => exact (isRequestScript_scriptRmw2 p req8).tailOk false
    | setFrequency freq => exact scriptTailOk_scriptSf p false

/-- The acceptance of the latched command establishes the invariant. -/
theorem inv_of_exec {i : Instr} {s t : State} (hd : decode s.cmd = .ok i) (hv : s.rspValid = false)
    (hw : s.env.wf = true) (h : exec i s = .next t) : t.Inv := by
  obtain ⟨c, -, rfl⟩ | ⟨hpass, rfl⟩ := exec_cases h
  · exact .of_idle rfl hw
  · refine ⟨fun _ => ⟨?_, (length_scriptOf s.params i).1, scriptTailOk_scriptOf hpass, hv⟩, hw⟩
    refine State.scriptLatched_iff.2 ⟨i, hd, rfl, fun v hneeded => ?_⟩
    rw [State.accepted_p, show neededPrescale s.params i = some v from hneeded, Option.getD_some]

/-- A successful micro-operation leaves the rest of its script runnable: its effect on `S.w` and `S.bound` is the one
that `scriptTailOk` reckons with. -/
theorem scriptTailOk_effect {op : MicroOp} {rest : List MicroOp} {s : State} (r : BusResponse)
    (h : scriptTailOk s.wFresh s.bound (op :: rest) = true) :
    scriptTailOk (op.effect r s).wFresh (op.effect r s).bound rest = true := by
  cases op <;>
    · simp only [scriptTailOk, Bool.and_eq_true] at h
      simpa using h.2

/-- A finished micro-operation keeps the invariant: the command ends, or goes on with the rest of its script. -/
theorem inv_finish {op : MicroOp} {s : State} (r : BusResponse) (hb : s.BusyInv) (hw : s.env.wf = true)
    (ho : s.script[s.upc]? = some op) : (op.finish r s).Inv := by
  obtain ⟨hlatched, hlt, htail, hv⟩ := hb
  cases hs : op.succeeds r with
  | false =>
    rw [MicroOp.finish_failure hs]
    exact .of_idle rfl (by simpa using hw)
  | true =>
    rw [MicroOp.finish_success hs]
    by_cases hlast : s.upc + 1 = s.script.length
    · rw [State.advance_last (by simpa using hlast)]
      exact .of_idle (State.complete_phase op _) (by simpa using hw)
    · rw [State.advance_inner (by simpa using hlast)]
      rw [List.drop_eq_getElem_cons hlt, (List.getElem?_eq_some_iff.1 ho).2] at htail
      refine ⟨fun _ => ⟨?_, ?_, ?_, by simpa using hv⟩, by simpa using hw⟩
      · simpa [State.scriptLatched] using hlatched
      · simp only [State.withUpc_upc, State.withUpc_script, MicroOp.effect_upc, MicroOp.effect_script]
        omega
      · simpa using scriptTailOk_effect r htail

theorem wf_blockReset_env {s : State} (hw : s.env.wf = true) : s.blockReset.env.wf = true := by
  rw [State.blockReset_env]
  split
  · exact hw
  · exact Env.wf_dropAnswer hw

/-- Settles O31, by the cases of a step: acceptance establishes the invariant for BUSY, a micro-operation keeps it, and
every other step leaves IDLE or the state itself. -/
theorem everyStepKeepsTheInvariant : Obligations.EveryStepKeepsTheInvariant := by
  intro s t hi h
  obtain ⟨-, rfl⟩ | ⟨-, -, -, rfl⟩ | ⟨-, -, word, rest, e, -, -, rfl⟩ | ⟨-, -, word, rest, i, -, hd, he⟩ |
    ⟨-, -, op, -, -, rfl⟩ | ⟨-, hp, op, r, e, ho, -, ha, rfl⟩ := step_cases h
  · exact .of_idle rfl (wf_blockReset_env hi.2)
  · exact hi
  · exact .of_idle rfl hi.2
  · exact inv_of_exec (s := s.latch word rest) hd rfl hi.2 he
  · exact hi
  · exact inv_finish (s := s.withEnv e) r (hi.1 hp) (Env.wf_answer ha hi.2) ho

/-! ### R415: `upc` -/

theorem State.BusyInv.upc_lt {s : State} (h : s.BusyInv) : s.upc < 17 := by
  obtain ⟨hlatched, hlt, -⟩ := h
  obtain ⟨i, -, hscript, -⟩ := State.scriptLatched_iff.1 hlatched
  have hle : s.script.length ≤ 17 := hscript ▸ (length_scriptOf s.params i).2
  omega

/-- Settles O36: `upc` moves by `MicroOp.finish_upc`, and no script is longer than 17. -/
theorem upcAdvancesByOneAndStaysWithinSeventeen : Obligations.UpcAdvancesByOneAndStaysWithinSeventeen := by
  intro s t hi hr hp h
  have hlt := State.BusyInv.upc_lt (hi.1 hp)
  rw [step_busy hr hp] at h
  obtain ⟨-, h'⟩ | ⟨_, -, -, -, h'⟩ | ⟨op, ho, -, ha, h'⟩ | ⟨op, r, e, ho, -, ha, h'⟩ := runMicroOp_cases s <;>
    cases h.symm.trans h'
  · exact ⟨by omega, op, ho, by simp [ha]⟩
  · have hupc : (op.finish r (s.withEnv e)).upc = if op.succeeds r = true then s.upc + 1 else s.upc :=
      MicroOp.finish_upc op r _
    refine ⟨?_, op, ho, by simpa [ha] using hupc⟩
    rw [hupc]; split <;> omega

/-! ### R417: an answered command ends -/

/-- The environment answers the block's next `n` requests, whatever they are. -/
def Env.AnswersNext (e : Env) (n : Nat) : Prop :=
  (∃ d, e.source = .double d) ∨ ∃ rs, e.source = .answers rs ∧ n ≤ rs.length

theorem Env.AnswersNext.answer {e : Env} {n : Nat} (h : e.AnswersNext (n + 1)) (p : Params) (q : BusRequest) :
    ∃ r e', e.answer p q = some (r, e') ∧ e'.AnswersNext n := by
  cases ha : e.answer p q with
  | none =>
    rw [Env.answer_none] at ha
    obtain ⟨d, hs⟩ | ⟨rs, hs, hn⟩ := h <;> cases ha.symm.trans hs
    cases hn
  | some x =>
    refine ⟨x.1, x.2, rfl, ?_⟩
    obtain ⟨rest, hs, he⟩ | ⟨d, -, -, he⟩ := Env.answer_cases ha
    · obtain ⟨d, hs'⟩ | ⟨rs, hs', hn⟩ := h <;> cases hs.symm.trans hs'
      exact .inr ⟨rest, by rw [he], by simpa using hn⟩
    · exact .inl ⟨_, by rw [he]⟩

/-- The run from `s` ends in `t` after `n` transactions, with one response, and after the whole script if that is OK;
before the end it is BUSY without a response. -/
def State.EndsIn (s : State) (n : Nat) (t : State) : Prop :=
  1 ≤ n ∧ n ≤ s.script.length - s.upc ∧ runSteps n s = .next t ∧
    t.phase = .idle ∧ t.rspValid = true ∧ t.env.blockTxns.length = s.env.blockTxns.length + n ∧
    (t.rspStatus = .ok → n = s.script.length - s.upc) ∧
    ∀ m < n, ∃ u, runSteps m s = .next u ∧ u.phase = .busy ∧ u.rspValid = false

/-- `t` ends the command of `s`: with a response, an OK one only after the script's last micro-operation. -/
def State.EndedBy (s t : State) : Prop :=
  t.phase = .idle ∧ t.rspValid = true ∧ (t.rspStatus = .ok → s.upc + 1 = s.script.length)

/-- `t` goes on with the command of `s` at its next micro-operation. -/
def State.ContinuedBy (s t : State) : Prop :=
  t.phase = .busy ∧ t.rst = s.rst ∧ t.script = s.script ∧ t.upc = s.upc + 1

/-- R402: a finished micro-operation ends the command or goes on with it. -/
theorem MicroOp.finish_ends_or_continues {op : MicroOp} {s : State} (r : BusResponse) (hp : s.phase = .busy) :
    s.EndedBy (op.finish r s) ∨ s.ContinuedBy (op.finish r s) := by
  cases hs : op.succeeds r with
  | false =>
    rw [MicroOp.finish_failure hs]
    exact .inl ⟨rfl, rfl, by rintro ⟨⟩⟩
  | true =>
    rw [MicroOp.finish_success hs]
    by_cases hlast : s.upc + 1 = s.script.length
    · rw [State.advance_last (by simpa using hlast)]
      exact .inl ⟨by simp, by simp, fun _ => hlast⟩
    · rw [State.advance_inner (by simpa using hlast)]
      exact .inr ⟨by simpa using hp, by simp, by simp, by simp⟩

/-- One step of an executing command whose next request is answered. -/
theorem step_of_answersNext {s : State} {n : Nat} (hi : s.Inv) (hr : s.rst = false) (hp : s.phase = .busy)
    (hbus : s.env.AnswersNext (n + 1)) :
    ∃ t, step s = .next t ∧ t.env.blockTxns.length = s.env.blockTxns.length + 1 ∧ t.env.AnswersNext n ∧
      (s.EndedBy t ∨ s.ContinuedBy t) := by
  obtain ⟨-, hlt, -⟩ := hi.1 hp
  have ho : s.script[s.upc]? = some s.script[s.upc] := List.getElem?_eq_getElem hlt
  obtain ⟨r, e, ha, hrest⟩ := hbus.answer s.params (s.script[s.upc].request s)
  refine ⟨_, step_answered hr hp ho (hi.wFresh_of_readsW hp ho) ha, ?_, ?_,
    MicroOp.finish_ends_or_continues (s := s.withEnv e) r hp⟩
  · simp [Env.blockTxns_answer ha]
  · simpa using hrest

theorem State.endsIn_one {s t : State} (hi : s.Inv) (hp : s.phase = .busy) (h : step s = .next t)
    (htx : t.env.blockTxns.length = s.env.blockTxns.length + 1) (hend : s.EndedBy t) : s.EndsIn 1 t := by
  obtain ⟨-, hlt, -, hv⟩ := hi.1 hp
  obtain ⟨hidle, hvalid, hok⟩ := hend
  refine ⟨le_rfl, by omega, runSteps_succ h, hidle, hvalid, htx, fun hs => ?_, fun m hm => ?_⟩
  · have := hok hs
    omega
  · obtain rfl : m = 0 := by omega
    exact ⟨s, rfl, hp, hv⟩

theorem State.EndsIn.of_step {s t u : State} {n : Nat} (hi : s.Inv) (hp : s.phase = .busy) (h : step s = .next t)
    (htx : t.env.blockTxns.length = s.env.blockTxns.length + 1) (hcont : s.ContinuedBy t) (hu : t.EndsIn n u) :
    s.EndsIn (n + 1) u := by
  obtain ⟨-, hlt, -, hv⟩ := hi.1 hp
  obtain ⟨-, -, hscript, hupc⟩ := hcont
  obtain ⟨hpos, hle, hrun, hidle, hvalid, htxns, hok, hbefore⟩ := hu
  rw [hscript, hupc] at hle hok
  refine ⟨by omega, by omega, (runSteps_succ h).trans hrun, hidle, hvalid, by omega, fun hs => ?_, fun m hm => ?_⟩
  · have := hok hs
    omega
  · cases m with
    | zero => exact ⟨s, rfl, hp, hv⟩
    | succ m => rw [runSteps_succ h]; exact hbefore m (by omega)

theorem exists_endsIn (k : Nat) : ∀ s : State, s.Inv → s.rst = false → s.phase = .busy →
    s.script.length - s.upc = k → s.env.AnswersNext k → ∃ n t, s.EndsIn n t := by
  induction k with
  | zero =>
    intro s hi _ hp hk _
    obtain ⟨-, hlt, -⟩ := hi.1 hp
    omega
  | succ k ih =>
    intro s hi hr hp hk hbus
    obtain ⟨t, h, htx, hrest, hend | hcont⟩ := step_of_answersNext hi hr hp hbus
    · exact ⟨1, t, State.endsIn_one hi hp h htx hend⟩
    · have ⟨hbusy, hrst, hscript, hupc⟩ := hcont
      obtain ⟨n, u, hu⟩ := ih t (everyStepKeepsTheInvariant s t hi h) (hrst.trans hr) hbusy
        (by rw [hscript, hupc]; omega) hrest
      exact ⟨n + 1, u, hu.of_step hi hp h htx hcont⟩

/-- Settles O28, by induction on the micro-operations left: each step under the invariant ends the command or goes on
with one fewer. -/
theorem answeredCommandEnds : Obligations.AnsweredCommandEnds :=
  fun s hi hr hp hbus => exists_endsIn _ s hi hr hp rfl hbus

end Sys2Proof.Machine
end

section
/-! The compute functions of the MODE requests (41_mode_rmw R422, R424, R432 to R434): `m1` bit by bit, and what each
stage of `m2` does inside and outside its own mask. -/

namespace Sys2Proof.Machine

/-! ### R422, R424: `m1` -/

/-- Settles O43: the bits of `(w & ~clr) | set`, at RESTART's position and at any other. -/
theorem mode1ComputesEachBit : Obligations.Mode1ComputesEachBit := by
  intro p w req k hk
  rw [getLsbD_m1 p w req hk, slotOn, slotOff]
  split
  · next hrestart => simp [hrestart, Bool.or_comm]
  · next hother =>
    simp only [bne_iff_ne.2 hother, beq_eq_false_iff_ne.2 hother]
    cases req.getLsbD (2 * k) <;> cases req.getLsbD (2 * k + 1) <;> simp

/-- A bit that is set afterwards need not be cleared before. -/
theorem clear_or_set_eq (w set clr : Byte) : (w &&& ~~~clr) ||| set = (w &&& ~~~(set ||| clr)) ||| set := by
  ext k hk
  simp only [BitVec.getElem_or, BitVec.getElem_and, BitVec.getElem_not]
  cases set[k] <;> simp

/-- Settles O44: R422's formula, in which the bits about to be set may be cleared as well. -/
theorem mode1RoundTripLaw : Obligations.Mode1RoundTripLaw := fun p w req =>
  clear_or_set_eq w (m1Set p req) (m1Clr p req)

/-! ### Bytes under a mask -/

section mask
variable (v : Byte) {m x : Byte}

theorem set_and_of_disjoint (h : m &&& x = 0) : (v ||| m) &&& x = v &&& x := by
  simp [BitVec.and_or_distrib_right, h]

theorem clear_and_of_disjoint (h : m &&& x = 0) : (v &&& ~~~m) &&& x = v &&& x := by
  have hx : ~~~m &&& x = x := by
    calc ~~~m &&& x = (~~~m ||| m) &&& x := (set_and_of_disjoint (~~~m) h).symm
      _ = x := by rw [BitVec.not_or_self, BitVec.allOnes_and]
  rw [BitVec.and_assoc, hx]

theorem set_and_self (m : Byte) : (v ||| m) &&& m = m := by
  ext k hk
  simp +contextual

theorem clear_and_self (m : Byte) : (v &&& ~~~m) &&& m = 0 := by
  rw [BitVec.and_assoc, BitVec.not_and_self]
  exact BitVec.and_zero

/-- A sub-bit of a field lies outside whatever the field lies outside. -/
theorem and_eq_zero_of_subfield {b : Byte} (hb : b &&& ~~~m = 0) (h : m &&& x = 0) : b &&& x = 0 := by
  rw [← clear_and_of_disjoint b h, hb]
  exact BitVec.zero_and

/-- A sub-bit of a field is its own part of the field. -/
theorem and_eq_self_of_subfield {b : Byte} (hb : b &&& ~~~m = 0) : b &&& m = b := by
  calc b &&& m = b &&& m ||| b &&& ~~~m := by rw [hb]; exact BitVec.or_zero.symm
    _ = b := by rw [← BitVec.and_or_distrib_left, BitVec.or_not_self, BitVec.and_allOnes]

/-- Masks and the bits outside all of them. -/
theorem masks_disjoint_complement (a b c : Byte) :
    a &&& ~~~(a ||| b ||| c) = 0 ∧ b &&& ~~~(a ||| b ||| c) = 0 ∧ c &&& ~~~(a ||| b ||| c) = 0 := by
  refine ⟨?_, ?_, ?_⟩ <;>
    · ext k hk
      simp +contextual

end mask

/-! ### R432, R433: the stages of `m2` -/

/-- R432's output-enable tests: high-Z (req[2]), then totem-pole (req[3]). -/
def m2OutputEnable (p : Params) (v : Byte) (req : BitVec 8) : Byte :=
  let u := if req.getLsbD 2 then m2OeHz p v else v
  if req.getLsbD 3 then m2OeTp p u else u

/-- R432's INVERT test (req[4]). -/
def m2Invert (p : Params) (v : Byte) (req : BitVec 8) : Byte := if req.getLsbD 4 then v ||| p.m2Invrt else v

theorem m2_eq (p : Params) (w : Byte) (req : BitVec 8) :
    m2 p w req = m2Invert p (m2OutputEnable p (m2Driver p w (req.extractLsb' 0 2)) req) req := rfl

section outside
variable {p : Params} (v : Byte) (req : BitVec 8) {x : Byte}

theorem m2Driver_and_of_disjoint (sel : BitVec 2) (hod : p.m2DrvOd &&& ~~~p.m2DrvField = 0)
    (hhz : p.m2DrvHz &&& ~~~p.m2DrvField = 0) (h : p.m2DrvField &&& x = 0) : m2Driver p v sel &&& x = v &&& x := by
  unfold m2Driver
  split_ifs
  · rfl
  · rw [set_and_of_disjoint _ (and_eq_zero_of_subfield hod h), clear_and_of_disjoint v h]
  · rw [set_and_of_disjoint _ (and_eq_zero_of_subfield hhz h), clear_and_of_disjoint v h]
  · rw [clear_and_of_disjoint v h]

theorem m2OeHz_and_of_disjoint (h : p.m2OeBit &&& x = 0) : m2OeHz p v &&& x = v &&& x := by
  unfold m2OeHz
  split
  · exact clear_and_of_disjoint v h
  · exact set_and_of_disjoint v h

theorem m2OeTp_and_of_disjoint (h : p.m2OeBit &&& x = 0) : m2OeTp p v &&& x = v &&& x := by
  unfold m2OeTp
  split
  · exact set_and_of_disjoint v h
  · exact clear_and_of_disjoint v h

theorem m2OutputEnable_and_of_disjoint (h : p.m2OeBit &&& x = 0) : m2OutputEnable p v req &&& x = v &&& x := by
  simp only [m2OutputEnable]
  split_ifs
  · rw [m2OeTp_and_of_disjoint _ h, m2OeHz_and_of_disjoint _ h]
  · exact m2OeTp_and_of_disjoint v h
  · exact m2OeHz_and_of_disjoint v h
  · rfl

theorem m2Invert_and_of_disjoint (h : p.m2Invrt &&& x = 0) : m2Invert p v req &&& x = v &&& x := by
  unfold m2Invert
  split
  · exact set_and_of_disjoint v h
  · rfl

end outside

section inside
variable {p : Params} (v : Byte) (req : BitVec 8)

/-- R432's driver test inside the driver field. -/
theorem m2Driver_and_field (sel : BitVec 2) (hod : p.m2DrvOd &&& ~~~p.m2DrvField = 0)
    (hhz : p.m2DrvHz &&& ~~~p.m2DrvField = 0) :
    m2Driver p v sel &&& p.m2DrvField =
      if sel = 0b00#2 then v &&& p.m2DrvField else if sel = 0b01#2 then 0 else if sel = 0b10#2 then p.m2DrvOd
      else p.m2DrvHz := by
  have field {b : Byte} (hb : b &&& ~~~p.m2DrvField = 0) : (v &&& ~~~p.m2DrvField ||| b) &&& p.m2DrvField = b := by
    rw [BitVec.and_or_distrib_right, clear_and_self, and_eq_self_of_subfield hb]
    exact BitVec.zero_or
  have hsel : sel = 0b00#2 ∨ sel = 0b01#2 ∨ sel = 0b10#2 ∨ sel = 0b11#2 := by revert sel; decide
  obtain rfl | rfl | rfl | rfl := hsel
  · rfl
  · exact clear_and_self v p.m2DrvField
  · exact field hod
  · exact field hhz

/-- R433: the "request high-Z" test on the bit it is about. -/
theorem m2OeHz_and_oeBit : m2OeHz p v &&& p.m2OeBit = if p.oePolarity = .source then 0 else p.m2OeBit := by
  cases hp : p.oePolarity <;> simp [m2OeHz, hp, set_and_self, clear_and_self]

/-- R433: the "request totem-pole" test on the bit it is about. -/
theorem m2OeTp_and_oeBit : m2OeTp p v &&& p.m2OeBit = if p.oePolarity = .source then p.m2OeBit else 0 := by
  cases hp : p.oePolarity <;> simp [m2OeTp, hp, set_and_self, clear_and_self]

/-- R432, R433: the totem-pole test is the later one, so its result stands. -/
theorem m2OutputEnable_and_oeBit :
    m2OutputEnable p v req &&& p.m2OeBit =
      if req.getLsbD 3 then (if p.oePolarity = .source then p.m2OeBit else 0)
      else if req.getLsbD 2 then (if p.oePolarity = .source then 0 else p.m2OeBit)
      else v &&& p.m2OeBit := by
  simp only [m2OutputEnable]
  split
  · exact m2OeTp_and_oeBit _
  · split
    · exact m2OeHz_and_oeBit v
    · rfl

theorem m2Invert_and_invrt :
    m2Invert p v req &&& p.m2Invrt = if req.getLsbD 4 then p.m2Invrt else v &&& p.m2Invrt := by
  unfold m2Invert
  split
  · exact set_and_self v p.m2Invrt
  · rfl

end inside

/-- Settles O46: each stage of `m2` keeps what lies outside its own mask, the driver field and INVERT are each one
stage's, and OCH is no stage's. -/
theorem mode2DriverFieldAndPreservedBits : Obligations.Mode2DriverFieldAndPreservedBits := by
  rintro p w req ⟨-, -, -, hod, hhz, hfieldOe, hfieldOch, hfieldInv, hoeOch, hoeInv, hochInv, -⟩
  rw [m2_eq]
  refine ⟨?_, ?_, ?_, ?_⟩
  · have hinvField : p.m2Invrt &&& p.m2DrvField = 0 := by rwa [BitVec.and_comm]
    have hoeField : p.m2OeBit &&& p.m2DrvField = 0 := by rwa [BitVec.and_comm]
    rw [m2Invert_and_of_disjoint _ _ hinvField, m2OutputEnable_and_of_disjoint _ _ hoeField,
      m2Driver_and_field w _ hod hhz]
  · have hinvOch : p.m2Invrt &&& p.m2Och = 0 := by rwa [BitVec.and_comm]
    rw [m2Invert_and_of_disjoint _ _ hinvOch, m2OutputEnable_and_of_disjoint _ _ hoeOch,
      m2Driver_and_of_disjoint w _ hod hhz hfieldOch]
  · rw [m2Invert_and_invrt, m2OutputEnable_and_of_disjoint _ _ hoeInv,
      m2Driver_and_of_disjoint w _ hod hhz hfieldInv]
  · obtain ⟨hfield, hoe, hinv⟩ := masks_disjoint_complement p.m2DrvField p.m2OeBit p.m2Invrt
    rw [m2Invert_and_of_disjoint _ _ hinv, m2OutputEnable_and_of_disjoint _ _ hoe,
      m2Driver_and_of_disjoint w _ hod hhz hfield]

/-- Settles O47: the output-enable tests are the only stage of `m2` that reaches their bit. -/
theorem mode2OutputEnablePolarity : Obligations.Mode2OutputEnablePolarity := by
  refine ⟨rfl, ?_⟩
  rintro p w req ⟨-, -, -, hod, hhz, hfieldOe, -, -, -, hoeInv, -⟩
  have hinvOe : p.m2Invrt &&& p.m2OeBit = 0 := by rwa [BitVec.and_comm]
  rw [m2_eq, m2Invert_and_of_disjoint _ _ hinvOe, m2OutputEnable_and_oeBit,
    m2Driver_and_of_disjoint w _ hod hhz hfieldOe]

end Sys2Proof.Machine
end

section
/-! The runs of APPLY_MODE1, APPLY_MODE2 and CLOSE (41_mode_rmw R421, R423, R431, R435; 44_lifecycle R494), on any bus
and on an undisturbed double. -/

namespace Sys2Proof.Machine

/-! ### Accepted commands -/

theorem exec_of_preCheck_none {i : Instr} {s : State} (h : preCheck s.params s.bound i = none) :
    exec i s = .next (s.accepted i) := by
  rw [exec_eq, h]

/-- R401: a bound block accepts a well-formed APPLY_MODE2 (R430). -/
theorem exec_applyMode2_wellFormed {s : State} {req : BitVec 8} (hb : s.bound = true)
    (hwf : (Instr.applyMode2 req).WellFormed) : exec (.applyMode2 req) s = .next (s.accepted (.applyMode2 req)) :=
  exec_of_preCheck_none (by simp [preCheck, hwf, hb])

theorem exec_closeDevice_bound {s : State} (hb : s.bound = true) :
    exec .closeDevice s = .next (s.accepted .closeDevice) :=
  exec_of_preCheck_none (by simp [preCheck, Instr.wellFormed, hb])

/-- The only micro-operation of an accepted command's script ends the command (R402). -/
theorem step_accepted_single {s : State} {i : Instr} {op : MicroOp} {r : BusResponse} {e : Env} (hr : s.rst = false)
    (hscript : scriptOf s.params i = [op]) (hw : op.readsW = false)
    (ha : s.env.answer s.params (op.request (s.accepted i)) = some (r, e)) :
    step (s.accepted i) = .next (op.finish r ((s.accepted i).withEnv e)) :=
  step_answered (s := s.accepted i) hr rfl (by simp [hscript]) (by simp [hw]) ha

/-! ### R423, R435: pointer write, read, write-back -/

/-- The three requests of a read-modify-write that writes `v` back. -/
def rmwRequests (chan : Token) (a v : Byte) : List BusRequest :=
  [.busWrite chan [a], .busRead chan 1, .busWrite chan [a, v]]

/-- What a read-modify-write command leaves of the block: the response OK, the byte read in `S.w`, and the rest as it
was. -/
def State.ReadModifyWritten (s : State) (byte : Byte) (e : Env) (u : State) : Prop :=
  u.RespondsOk ∧ u.env = e ∧ SameBinding s u ∧ SameCommandSide s u ∧ u.w = byte ∧ u.p = s.p

/-- An accepted command whose script is one read-modify-write completes in three steps when its three requests are
answered in full. -/
theorem runSteps_accepted_rmw {s : State} {i : Instr} {a : Byte} {f : WorkFn} {r1 r2 r3 : BusResponse} {e : Env}
    (hr : s.rst = false) (hscript : scriptOf s.params i = [.ptr a, .rd, .wb a f])
    (hpre : neededPrescale s.params i = none)
    (ha : s.env.answerAll s.params (rmwRequests s.chan a (applyWork s.params f r2.byte)) = some ([r1, r2, r3], e))
    (c1 : r1.count = 1) (c2 : r2.count = 1) (c3 : r3.count = 2) :
    ∃ u, runSteps 3 (s.accepted i) = .next u ∧ s.ReadModifyWritten r2.byte e u := by
  obtain ⟨e1, a1, ha⟩ := Env.answerAll_cons ha
  obtain ⟨e2, a2, ha⟩ := Env.answerAll_cons ha
  obtain ⟨e3, a3, ha⟩ := Env.answerAll_cons ha
  obtain ⟨-, rfl⟩ := Env.answerAll_nil ha
  have hrun := runSteps_rmw (s := s.accepted i) hr rfl (by simp [hscript]) (by simp [hscript]) (by simp [hscript])
    a1 a2 a3 c1 c2 c3
  rw [State.advance_last (by simp [hscript])] at hrun
  exact ⟨_, hrun, State.complete_respondsOk _ _, State.complete_env _ _, ⟨rfl, rfl⟩, ⟨rfl, rfl, rfl, rfl⟩, rfl,
    by simp [hpre]⟩

/-- Settles O23: the script of a legal non-empty request is the read-modify-write of MODE1 by `m1`. -/
theorem applyMode1ReadsModifiesWrites : Obligations.ApplyMode1ReadsModifiesWrites := by
  intro s req r1 r2 r3 e hr hb hreq hlegal ha c1 c2 c3
  obtain ⟨u, hrun, hok, henv, hbinding, hside, hw, hp⟩ :=
    runSteps_accepted_rmw (i := .applyMode1 req) (f := .m1 req) hr (scriptRmw1_of_ne hreq) rfl ha c1 c2 c3
  exact ⟨_, u, exec_applyMode1_legal hb hlegal, hrun, hok, henv, henv ▸ (Env.blockTxns_answerAll ha).1, hbinding, hside,
    hw, hp⟩

/-- Settles O24: the script of a non-empty request is the read-modify-write of MODE2 by `m2`. -/
theorem applyMode2ReadsModifiesWrites : Obligations.ApplyMode2ReadsModifiesWrites := by
  intro s req r1 r2 r3 e hr hb hreq hwf ha c1 c2 c3
  obtain ⟨u, hrun, hok, henv, hbinding, hside, hw, hp⟩ :=
    runSteps_accepted_rmw (i := .applyMode2 req) (f := .m2 req) hr (scriptRmw2_of_ne hreq) rfl ha c1 c2 c3
  exact ⟨_, u, exec_applyMode2_wellFormed hb hwf, hrun, hok, henv, henv ▸ (Env.blockTxns_answerAll ha).1, hbinding,
    hside, hw, hp⟩

/-! ### R421, R431: an empty request -/

/-- The command is an empty request for the register at `a`. -/
def IsEmptyRequest (p : Params) (i : Instr) (a : Byte) : Prop :=
  (i = .applyMode1 0 ∧ a = p.regMode1) ∨ (i = .applyMode2 0 ∧ a = p.regMode2)

/-- R403 `EMPTY(a)`: one micro-operation, which writes the bytes of EMPTY_REQUEST_FORM. -/
theorem exists_scriptEmpty_eq (p : Params) (a : Byte) :
    ∃ op, scriptEmpty p a = [op] ∧ op.readsW = false ∧ ∀ s, op.request s = .busWrite s.chan (emptyBytes p a) := by
  unfold scriptEmpty emptyBytes
  cases p.emptyForm with
  | pointerOnly => exact ⟨_, rfl, rfl, fun _ => rfl⟩
  | writeZero => exact ⟨_, rfl, rfl, fun _ => rfl⟩

theorem IsEmptyRequest.scriptOf_eq {p : Params} {i : Instr} {a : Byte} (h : IsEmptyRequest p i a) :
    scriptOf p i = scriptEmpty p a := by
  obtain ⟨rfl, rfl⟩ | ⟨rfl, rfl⟩ := h <;> rfl

theorem IsEmptyRequest.neededPrescale_eq {p : Params} {i : Instr} {a : Byte} (h : IsEmptyRequest p i a) :
    neededPrescale p i = none := by
  obtain ⟨rfl, -⟩ | ⟨rfl, -⟩ := h <;> rfl

theorem req1Legal_zero (p : Params) : req1Legal p 0 = true := by
  simp [req1Legal_iff]

/-- A bound block accepts an empty request: it is legal and well formed. -/
theorem IsEmptyRequest.exec_eq {s : State} {i : Instr} {a : Byte} (h : IsEmptyRequest s.params i a)
    (hb : s.bound = true) : exec i s = .next (s.accepted i) := by
  obtain ⟨rfl, -⟩ | ⟨rfl, -⟩ := h
  · exact exec_applyMode1_legal hb (req1Legal_zero s.params)
  · exact exec_applyMode2_wellFormed hb rfl

/-- An empty request ends in one step, OK when all its bytes are written; it has no effect on the block. -/
theorem step_accepted_emptyRequest {s : State} {i : Instr} {a : Byte} {r : BusResponse} {e : Env}
    (h : IsEmptyRequest s.params i a) (hr : s.rst = false)
    (ha : s.env.answer s.params (.busWrite s.chan (emptyBytes s.params a)) = some (r, e)) :
    ∃ u, step (s.accepted i) = .next u ∧
      (if r.count = (emptyBytes s.params a).length then u.RespondsOk else u.RespondsFail .shortTransfer) ∧
      u.env = e ∧ SameBinding s u ∧ SameCommandSide s u ∧ u.w = s.w ∧ u.p = s.p := by
  obtain ⟨op, hop, hw, hrequest⟩ := exists_scriptEmpty_eq s.params a
  have hscript : scriptOf s.params i = [op] := h.scriptOf_eq.trans hop
  refine ⟨_, step_accepted_single hr hscript hw (by rw [hrequest]; exact ha), ?_⟩
  rw [MicroOp.finish_of_busWrite (hrequest s)]
  split
  · rw [State.advance_last (by simp [hscript])]
    exact ⟨State.complete_respondsOk _ _, by simp [SameBinding, SameCommandSide, h.neededPrescale_eq]⟩
  · exact ⟨State.raise_respondsFail _ _, by simp [SameBinding, SameCommandSide, h.neededPrescale_eq]⟩

/-- Settles O22: the one step of `step_accepted_emptyRequest`, for both forms of the request. -/
theorem emptyModeRequestIssuesOneWrite : Obligations.EmptyModeRequestIssuesOneWrite := by
  intro s i a r e (hempty : IsEmptyRequest s.params i a) hr hb ha
  obtain ⟨u, hstep, hresponse, rfl, hframe⟩ := step_accepted_emptyRequest hempty hr ha
  refine ⟨_, u, hempty.exec_eq hb, hstep, ?_, rfl, Env.blockTxns_answer ha, hframe⟩
  cases hform : s.params.emptyForm <;> simpa [emptyBytes, hform] using hresponse

/-! ### R230 to R235: an undisturbed double -/

section calm
variable {p : Params} {e : Env} {d : Double} (hs : e.source = .double d) (hd : d.Calm)
include hs hd

theorem Env.answer_busWrite_calm (c : Token) (bytes : List Byte) :
    ∃ e', e.answer p (.busWrite c bytes) = some ({ count := bytes.length }, e') ∧
      e'.source = .double (d.write p bytes) := by
  obtain ⟨hinject, hothers⟩ := hd
  obtain ⟨e', ha, hsrc, -⟩ := Env.answer_busWrite_double (p := p) hs (Double.othersAt_calm d e.txns hothers) c bytes
    (by simp [hinject])
  exact ⟨e', ha, hsrc⟩

theorem Env.answer_busRead_calm (c : Token) (n : Nat) :
    ∃ e', e.answer p (.busRead c n) = some ({ count := n, byte := d.reg d.ptr }, e') ∧ e'.source = .double d := by
  obtain ⟨hinject, hothers⟩ := hd
  obtain ⟨e', ha, hsrc, -⟩ := Env.answer_busRead_double (p := p) hs (Double.othersAt_calm d e.txns hothers) c n
    (by simp [hinject])
  exact ⟨e', ha, hsrc⟩

/-- R209: BusClose does not reach the chip's registers. -/
theorem Env.answer_busClose_calm (c : Token) :
    ∃ e', e.answer p (.busClose c) = some ({ status := 0 }, e') ∧ e'.source = .double d := by
  obtain ⟨e', ha, hsrc, -⟩ := Env.answer_double (p := p) hs (Double.othersAt_calm d e.txns hd.2) (.busClose c)
  exact ⟨e', ha, hsrc⟩

/-- The double answers a read-modify-write in full, the read with the register's byte (R213). -/
theorem Env.answerAll_rmw_calm (c : Token) (a v : Byte) :
    ∃ e', e.answerAll p (rmwRequests c a v) =
        some ([{ count := 1 }, { count := 1, byte := d.reg a }, { count := 2 }], e') ∧
      e'.source = .double (d.write p [a, v]) := by
  obtain ⟨e1, a1, src1⟩ := Env.answer_busWrite_calm (p := p) hs hd c [a]
  obtain ⟨e2, a2, src2⟩ := Env.answer_busRead_calm (p := p) src1 hd c 1
  obtain ⟨e3, a3, src3⟩ := Env.answer_busWrite_calm (p := p) src2 hd c [a, v]
  refine ⟨e3, ?_, src3⟩
  simp only [rmwRequests, Env.answerAll, a1, a2, a3]
  rfl

end calm

/-! ### R231 to R233: what a two-byte write stores -/

section store
variable {p : Params} {d : Double} (hwf : Memory.wf d.regs = true)
include hwf

theorem Double.reg_write_two_other {a x : Byte} (v : Byte) (hx : x ≠ a) : (d.write p [a, v]).reg x = d.reg x := by
  rw [Double.write_two, Double.reg_store (d := { d with ptr := a }) (h := hwf), if_neg hx]
  rfl

theorem Double.reg_write_two_plain {a : Byte} (v : Byte) (ha : IsPlainAddress p a) : (d.write p [a, v]).reg a = v := by
  rw [Double.write_two, Double.reg_store_plain (d := { d with ptr := a }) v hwf ha]
  exact Function.update_self ..

/-- R421, R431: an empty request leaves every other register alone. -/
theorem Double.reg_write_empty_other {a x : Byte} (hx : x ≠ a) : (d.write p (emptyBytes p a)).reg x = d.reg x := by
  unfold emptyBytes
  split
  · rfl
  · exact Double.reg_write_two_other hwf 0x00 hx

/-- R421, R431: an empty request leaves its own register alone, or clears it under WRITE_ZERO. -/
theorem Double.reg_write_empty_same {a : Byte} (ha : a ≠ p.regPreScale) :
    (d.write p (emptyBytes p a)).reg a = emptiedRegister p (d.reg a) := by
  unfold emptyBytes emptiedRegister
  cases p.emptyForm with
  | pointerOnly => rfl
  | writeZero =>
    rw [Double.write_two, Double.reg_store (d := { d with ptr := a }) (h := hwf)]
    simp [ha]

end store

/-! ### The commands on an undisturbed double -/

/-- R202: the three fixed registers are three. -/
theorem registers_ne_of_wf {p : Params} (hp : p.wf) :
    p.regMode1 ≠ p.regMode2 ∧ p.regMode1 ≠ p.regPreScale ∧ p.regMode2 ≠ p.regPreScale := by
  obtain ⟨-, -, -, -, -, -, -, -, -, -, -, -, h⟩ := hp
  exact h

theorem IsEmptyRequest.ne_regPreScale {p : Params} {i : Instr} {a : Byte} (h : IsEmptyRequest p i a) (hp : p.wf) :
    a ≠ p.regPreScale := by
  obtain ⟨-, hne1, hne2⟩ := registers_ne_of_wf hp
  obtain ⟨-, rfl⟩ | ⟨-, rfl⟩ := h
  · exact hne1
  · exact hne2

section commands
variable {s : State} {d : Double} (hr : s.rst = false) (hb : s.bound = true) (hparams : s.params.wf)
  (hsrc : s.env.source = .double d) (hd : d.Calm) (hwf : Memory.wf d.regs = true)
include hr hb hsrc hd

include hparams hwf in
/-- R423 on the double. -/
theorem applyMode1_on_calm_double {req : BitVec 16} (hreq : req ≠ 0) (hlegal : req1Legal s.params req = true) :
    ∃ t u, exec (.applyMode1 req) s = .next t ∧ runSteps 3 t = .next u ∧ u.RespondsOk ∧
      u.chipReg s.params.regMode1 =
        some (m1 s.params (d.reg s.params.regMode1) req &&& ~~~bit s.params.m1.restart.val) ∧
      ∀ x, x ≠ s.params.regMode1 → u.chipReg x = s.chipReg x := by
  obtain ⟨-, hne, -⟩ := registers_ne_of_wf hparams
  obtain ⟨e, ha, hsrc'⟩ := Env.answerAll_rmw_calm (p := s.params) hsrc hd s.chan s.params.regMode1
    (m1 s.params (d.reg s.params.regMode1) req)
  obtain ⟨t, u, hexec, hrun, hok, rfl, -⟩ :=
    applyMode1ReadsModifiesWrites s req { count := 1 } { count := 1, byte := d.reg s.params.regMode1 }
      { count := 2 } e hr hb hreq hlegal ha rfl rfl rfl
  refine ⟨t, u, hexec, hrun, hok, ?_, fun x hx => ?_⟩
  · rw [State.chipReg_of_double hsrc', Double.reg_write_mode1 _ hwf hne]
  · rw [State.chipReg_of_double hsrc', State.chipReg_of_double hsrc, Double.reg_write_two_other hwf _ hx]

include hparams hwf in
/-- R435 on the double. -/
theorem applyMode2_on_calm_double {req : BitVec 8} (hreq : req ≠ 0) (hlegal : (Instr.applyMode2 req).WellFormed) :
    ∃ t u, exec (.applyMode2 req) s = .next t ∧ runSteps 3 t = .next u ∧ u.RespondsOk ∧
      u.chipReg s.params.regMode2 = some (m2 s.params (d.reg s.params.regMode2) req) ∧
      ∀ x, x ≠ s.params.regMode2 → u.chipReg x = s.chipReg x := by
  obtain ⟨hne1, -, hnePre⟩ := registers_ne_of_wf hparams
  obtain ⟨e, ha, hsrc'⟩ := Env.answerAll_rmw_calm (p := s.params) hsrc hd s.chan s.params.regMode2
    (m2 s.params (d.reg s.params.regMode2) req)
  obtain ⟨t, u, hexec, hrun, hok, rfl, -⟩ :=
    applyMode2ReadsModifiesWrites s req { count := 1 } { count := 1, byte := d.reg s.params.regMode2 }
      { count := 2 } e hr hb hreq hlegal ha rfl rfl rfl
  refine ⟨t, u, hexec, hrun, hok, ?_, fun x hx => ?_⟩
  · rw [State.chipReg_of_double hsrc', Double.reg_write_two_plain hwf _ ⟨hne1.symm, hnePre⟩]
  · rw [State.chipReg_of_double hsrc', State.chipReg_of_double hsrc, Double.reg_write_two_other hwf _ hx]

include hparams hwf in
/-- R421, R431 on the double. -/
theorem emptyRequest_on_calm_double {i : Instr} {a : Byte} (h : IsEmptyRequest s.params i a) :
    ∃ t u, exec i s = .next t ∧ step t = .next u ∧ u.RespondsOk ∧
      u.chipReg a = some (emptiedRegister s.params (d.reg a)) ∧ ∀ x, x ≠ a → u.chipReg x = s.chipReg x := by
  obtain ⟨e, ha, hsrc'⟩ := Env.answer_busWrite_calm (p := s.params) hsrc hd s.chan (emptyBytes s.params a)
  obtain ⟨u, hstep, hok, rfl, -⟩ := step_accepted_emptyRequest h hr ha
  refine ⟨_, u, h.exec_eq hb, hstep, by simpa using hok, ?_, fun x hx => ?_⟩
  · rw [State.chipReg_of_double hsrc', Double.reg_write_empty_same hwf (h.ne_regPreScale hparams)]
  · rw [State.chipReg_of_double hsrc', State.chipReg_of_double hsrc, Double.reg_write_empty_other hwf hx]

/-- R494, R495 on the double. -/
theorem closeDevice_on_calm_double :
    ∃ t u, exec .closeDevice s = .next t ∧ step t = .next u ∧ u.RespondsOk ∧ ∀ x, u.chipReg x = s.chipReg x := by
  obtain ⟨e, ha, hsrc'⟩ := Env.answer_busClose_calm (p := s.params) hsrc hd s.chan
  refine ⟨_, _, exec_closeDevice_bound hb, step_accepted_single hr rfl rfl ha, ?_⟩
  rw [MicroOp.finish_success rfl, State.advance_last rfl]
  refine ⟨State.complete_respondsOk _ _, fun x => ?_⟩
  rw [State.chipReg_of_double (d := d) (by simpa using hsrc'), State.chipReg_of_double hsrc]

end commands

/-- Settles O54: each command's run against the double's answers, and what its writes store. -/
theorem modeCommandsAndCloseStoreOnlyTheirRegister : Obligations.ModeCommandsAndCloseStoreOnlyTheirRegister := by
  intro s d hr hb hparams hsrc hd hwf
  refine ⟨fun req => applyMode1_on_calm_double hr hb hparams hsrc hd hwf,
    fun req => applyMode2_on_calm_double hr hb hparams hsrc hd hwf, fun i a hempty => ?_,
    closeDevice_on_calm_double hr hb hsrc hd⟩
  obtain ⟨t, u, hexec, hstep, hok, hsame, hother⟩ := emptyRequest_on_calm_double hr hb hparams hsrc hd hwf hempty
  refine ⟨t, u, hexec, hstep, hok, fun hform => ?_, fun hform => ?_, hother⟩
  · rw [hsame, State.chipReg_of_double hsrc, emptiedRegister, hform]
  · rw [hsame, emptiedRegister, hform]

end Sys2Proof.Machine
end

section
/-! The prescale byte (42_frequency R452, R453). -/

namespace Sys2Proof.Machine

/-- R452: the byte of `q - 1`, which is 255 where `q` is 0. -/
theorem toNat_prescale (p : Params) (freq : Nat) :
    (prescale p freq).toNat = (prescaleQuotient p freq + 255) % 256 := by
  rw [prescale, trunc8, BitVec.toNat_ofInt]
  omega

/-- Settles O48: the two floor divisions of R452's quotient are one, by the product. -/
theorem prescaleIsTheFloorFormula : Obligations.PrescaleIsTheFloorFormula := by
  refine ⟨rfl, fun p freq _ _ => ?_⟩
  rw [toNat_prescale, prescaleQuotient, Nat.div_div_eq_div_mul]

/-- R453, with the defaults: the quotient is `6103 div freq`, at least 4 up to 1525 Hz and at most 256 from 24 Hz on. -/
theorem prescaleQuotient_default_bounds {freq : Nat} (hf : 1 ≤ freq) :
    (4 ≤ prescaleQuotient Params.default freq ↔ freq ≤ 1525) ∧
    (prescaleQuotient Params.default freq ≤ 256 ↔ 24 ≤ freq) := by
  have hq : prescaleQuotient Params.default freq = 6103 / freq := rfl
  rw [hq, Nat.le_div_iff_mul_le hf, Nat.div_le_iff_le_mul_add_pred hf]
  omega

/-- Settles O49: the bounds on the quotient, and there `q - 1` is a byte. -/
theorem prescaleRangeIsTwentyFourTo1525 : Obligations.PrescaleRangeIsTwentyFourTo1525 := by
  intro freq hf
  obtain ⟨hlow, hhigh⟩ := prescaleQuotient_default_bounds hf
  refine ⟨by omega, fun h24 h1525 => ?_⟩
  have h4 := hlow.2 h1525
  have h256 := hhigh.2 h24
  rw [toNat_prescale]
  omega

end Sys2Proof.Machine
end

section
/-! The MODE1 requests of SET_FREQUENCY (30_encoding R306; 42_frequency R454, R456), bit by bit. -/

namespace Sys2Proof.Machine

/-! ### R305, R306: the slots of a request -/

@[simp] theorem slotOn_or (a b : BitVec 16) (k : Nat) : slotOn (a ||| b) k = (slotOn a k || slotOn b k) :=
  BitVec.getLsbD_or ..

@[simp] theorem slotOff_or (a b : BitVec 16) (k : Nat) : slotOff (a ||| b) k = (slotOff a k || slotOff b k) :=
  BitVec.getLsbD_or ..

@[simp] theorem slotOn_req1On (j k : Fin 8) : slotOn (req1On j) k.val = decide (k = j) := by
  rw [slotOn, req1On, getLsbD_one_shiftLeft, ← Bool.decide_and]
  exact decide_eq_decide.2 (by omega)

@[simp] theorem slotOff_req1On (j k : Fin 8) : slotOff (req1On j) k.val = false := by
  rw [slotOff, req1On, getLsbD_one_shiftLeft, ← Bool.decide_and]
  exact decide_eq_false (by omega)

@[simp] theorem slotOn_req1Off (j k : Fin 8) : slotOn (req1Off j) k.val = false := by
  rw [slotOn, req1Off, getLsbD_one_shiftLeft, ← Bool.decide_and]
  exact decide_eq_false (by omega)

@[simp] theorem slotOff_req1Off (j k : Fin 8) : slotOff (req1Off j) k.val = decide (k = j) := by
  rw [slotOff, req1Off, getLsbD_one_shiftLeft, ← Bool.decide_and]
  exact decide_eq_decide.2 (by omega)

/-- R307, R422: a request with no RESTART slot sets the ON bits, clears the OFF bits and keeps the others. -/
theorem getLsbD_m1_of_no_restart (p : Params) (w : Byte) {req : BitVec 16} (hon : slotOn req p.m1.restart.val = false)
    (hoff : slotOff req p.m1.restart.val = false) (k : Fin 8) :
    (m1 p w req).getLsbD k.val =
      (if slotOn req k.val then true else if slotOff req k.val then false else w.getLsbD k.val) := by
  refine (mode1ComputesEachBit p w req k.val k.isLt).trans ?_
  split
  · next hk =>
    change (slotOn req k.val || slotOff req k.val || w.getLsbD k.val) = _
    simp [hk, hon, hoff]
  · rfl

/-- Settles O45: neither request names RESTART, so each sets its ON slots and clears its OFF slots. -/
theorem setupSleepsAndWakeWakes : Obligations.SetupSleepsAndWakeWakes := by
  intro p w k hp
  have hinj := Mode1Flag.position_injective hp
  have hsleep : p.m1.restart ≠ p.m1.sleep := hinj.ne (by decide : Mode1Flag.restart ≠ .sleep)
  have hai : p.m1.restart ≠ p.m1.ai := hinj.ne (by decide : Mode1Flag.restart ≠ .ai)
  have hallcall : p.m1.restart ≠ p.m1.allcall := hinj.ne (by decide : Mode1Flag.restart ≠ .allcall)
  constructor
  · rw [getLsbD_m1_of_no_restart p w (by simp [req1SleepSetup, hsleep, hai]) (by simp [req1SleepSetup, hallcall])]
    simp [req1SleepSetup]
  · rw [getLsbD_m1_of_no_restart p w (by simp [req1Wake]) (by simp [req1Wake, hsleep])]
    simp [req1Wake]

end Sys2Proof.Machine
end

section
/-! The run of SET_FREQUENCY (42_frequency R454) on any bus, as a piece of a script. -/

namespace Sys2Proof.Machine

/-! ### R416: requests answered one after another -/

theorem Env.answerAll_cons_of {p : Params} {e e1 e' : Env} {q : BusRequest} {qs : List BusRequest} {r : BusResponse}
    {rs : List BusResponse} (h : e.answer p q = some (r, e1)) (hs : e1.answerAll p qs = some (rs, e')) :
    e.answerAll p (q :: qs) = some (r :: rs, e') := by
  simp only [Env.answerAll, h, hs]

/-- The answers to two sequences of requests, taken apart where the second begins. -/
theorem Env.answerAll_append_iff {p : Params} {qs qs' : List BusRequest} {rs rs' : List BusResponse} {e e' : Env}
    (hlen : rs.length = qs.length) : e.answerAll p (qs ++ qs') = some (rs ++ rs', e') ↔
      ∃ e1, e.answerAll p qs = some (rs, e1) ∧ e1.answerAll p qs' = some (rs', e') := by
  induction qs generalizing rs e with
  | nil =>
    obtain rfl := List.eq_nil_of_length_eq_zero hlen
    simp [Env.answerAll]
  | cons q qs ih =>
    obtain ⟨r, rs, rfl⟩ := List.exists_cons_of_length_eq_add_one hlen
    have hlen' : rs.length = qs.length := by simpa using hlen
    constructor
    · intro h
      obtain ⟨e0, h0, h⟩ := Env.answerAll_cons h
      obtain ⟨e1, h1, h2⟩ := (ih hlen').1 h
      exact ⟨e1, Env.answerAll_cons_of h0 h1, h2⟩
    · rintro ⟨e1, h1, h2⟩
      obtain ⟨e0, h0, h1⟩ := Env.answerAll_cons h1
      exact Env.answerAll_cons_of h0 ((ih hlen').2 ⟨e1, h1, h2⟩)

/-! ### R402: pieces of a script -/

/-- The block after `n` more micro-operations of a script, the last read of which answered `byte`. -/
def State.workedOn (s : State) (byte : Byte) (e : Env) (n : Nat) : State :=
  { s with w := byte, wFresh := true, env := e, upc := s.upc + n }

@[simp] theorem State.workedOn_workedOn (s : State) (byte byte' : Byte) (e e' : Env) (m n : Nat) :
    (s.workedOn byte e m).workedOn byte' e' n = s.workedOn byte' e' (m + n) := by
  simp [State.workedOn, Nat.add_assoc]

theorem getElem?_of_drop {l rest : List MicroOp} {n : Nat} (h : l.drop n = rest) (k : Nat) :
    l[n + k]? = rest[k]? := by
  rw [← h, List.getElem?_drop]

theorem drop_add_of_drop {l rest : List MicroOp} {n : Nat} (h : l.drop n = rest) (k : Nat) :
    l.drop (n + k) = rest.drop k := by
  rw [← h, List.drop_drop]

section rmw
variable {s : State} {a : Byte} {f : WorkFn} {r1 r2 r3 : BusResponse} {e : Env} (hr : s.rst = false)
  (hp : s.phase = .busy)
  (ha : s.env.answerAll s.params (rmwRequests s.chan a (applyWork s.params f r2.byte)) = some ([r1, r2, r3], e))
  (c1 : r1.count = 1) (c2 : r2.count = 1) (c3 : r3.count = 2)
include hr hp ha c1 c2 c3

/-- A read-modify-write at any place of a script, its three requests answered in full. -/
theorem runSteps_rmw_of_drop {rest : List MicroOp} (hscript : s.script.drop s.upc = .ptr a :: .rd :: .wb a f :: rest) :
    runSteps 3 s = .next ((s.workedOn r2.byte e 2).advance (.wb a f)) := by
  obtain ⟨e1, a1, ha⟩ := Env.answerAll_cons ha
  obtain ⟨e2, a2, ha⟩ := Env.answerAll_cons ha
  obtain ⟨e3, a3, ha⟩ := Env.answerAll_cons ha
  obtain ⟨-, rfl⟩ := Env.answerAll_nil ha
  exact runSteps_rmw hr hp (getElem?_of_drop hscript 0) (getElem?_of_drop hscript 1) (getElem?_of_drop hscript 2)
    a1 a2 a3 c1 c2 c3

theorem runSteps_rmw_inner {op : MicroOp} {rest : List MicroOp}
    (hscript : s.script.drop s.upc = .ptr a :: .rd :: .wb a f :: op :: rest) :
    runSteps 3 s = .next (s.workedOn r2.byte e 3) := by
  have hlen : s.script.length - s.upc = rest.length + 4 := by rw [← List.length_drop, hscript]; rfl
  rw [runSteps_rmw_of_drop hr hp ha c1 c2 c3 hscript, State.advance_inner (by simp only [State.workedOn]; omega)]
  rfl

theorem runSteps_rmw_last (hscript : s.script.drop s.upc = [.ptr a, .rd, .wb a f]) :
    runSteps 3 s = .next ((s.workedOn r2.byte e 3).complete (.wb a f)) := by
  have hlen : s.script.length - s.upc = 3 := by rw [← List.length_drop, hscript]; rfl
  rw [runSteps_rmw_of_drop hr hp ha c1 c2 c3 hscript, State.advance_last (by simp only [State.workedOn]; omega)]
  rfl

end rmw

/-- R405: a write of `S.p` inside a script, answered in full. -/
theorem step_wkPrescale_of_drop {s : State} {a : Byte} {op : MicroOp} {rest : List MicroOp} {r : BusResponse} {e : Env}
    (hr : s.rst = false) (hp : s.phase = .busy) (hscript : s.script.drop s.upc = .wk a .prescale :: op :: rest)
    (ha : s.env.answer s.params (.busWrite s.chan [a, s.p]) = some (r, e)) (hc : r.count = 2) :
    step s = .next ((s.withEnv e).withUpc (s.upc + 1)) := by
  have hlen : s.script.length - s.upc = rest.length + 2 := by rw [← List.length_drop, hscript]; rfl
  exact step_inner (op := .wk a .prescale) hr hp (getElem?_of_drop hscript 0) (by simp [MicroOp.readsW]) ha
    (by simp [MicroOp.succeeds, hc]) (by omega)

/-! ### R454: the ten transactions -/

/-- R454's requests in four groups. -/
theorem frequencyRequests_eq (p : Params) (c : Token) (pre byte2 byte6 byte9 : Byte) :
    frequencyRequests p c pre byte2 byte6 byte9 =
      rmwRequests c p.regMode1 (m1 p byte2 (req1SleepSetup p)) ++ .busWrite c [p.regPreScale, pre] ::
        (rmwRequests c p.regMode1 (m1 p byte6 (req1Wake p)) ++ rmwRequests c p.regMode2 (m2 p byte9 req2Freq)) := rfl

/-- A script that ends with `SF` completes in ten steps from there when `SF`'s ten requests are answered in full. -/
theorem runSteps_sf {s : State} {r1 r2 r3 r4 r5 r6 r7 r8 r9 r10 : BusResponse} {e : Env}
    (hr : s.rst = false) (hp : s.phase = .busy) (hscript : s.script.drop s.upc = scriptSf s.params)
    (ha : s.env.answerAll s.params (frequencyRequests s.params s.chan s.p r2.byte r6.byte r9.byte) =
      some ([r1, r2, r3, r4, r5, r6, r7, r8, r9, r10], e))
    (hc : [r1.count, r2.count, r3.count, r4.count, r5.count, r6.count, r7.count, r8.count, r9.count, r10.count] =
      [1, 1, 2, 2, 1, 1, 2, 1, 1, 2]) :
    runSteps 10 s = .next ((s.workedOn r9.byte e 10).complete (.wb s.params.regMode2 (.m2 req2Freq))) := by
  simp only [List.cons.injEq, and_true] at hc
  obtain ⟨c1, c2, c3, c4, c5, c6, c7, c8, c9, c10⟩ := hc
  rw [frequencyRequests_eq] at ha
  obtain ⟨e3, a3, ha⟩ := (Env.answerAll_append_iff (rs := [r1, r2, r3]) rfl).1 ha
  obtain ⟨e4, a4, ha⟩ := Env.answerAll_cons ha
  obtain ⟨e7, a7, a10⟩ := (Env.answerAll_append_iff (rs := [r5, r6, r7]) rfl).1 ha
  rw [scriptSf_eq] at hscript
  have hdrop := drop_add_of_drop hscript
  have setup := runSteps_rmw_inner (f := .m1 (req1SleepSetup s.params)) hr hp a3 c1 c2 c3 hscript
  have prescaled : step (s.workedOn r2.byte e3 3) = .next (s.workedOn r2.byte e4 4) :=
    step_wkPrescale_of_drop hr hp (hdrop 3) a4 c4
  have woken := runSteps_rmw_inner (s := s.workedOn r2.byte e4 4) (f := .m1 (req1Wake s.params)) hr hp a7 c5 c6 c7
    (hdrop 4)
  have mode2 := runSteps_rmw_last (s := s.workedOn r6.byte e7 7) (f := .m2 req2Freq) hr hp a10 c8 c9 c10 (hdrop 7)
  rw [State.workedOn_workedOn] at woken mode2
  calc runSteps 10 s = runSteps 7 (s.workedOn r2.byte e3 3) := runSteps_add (n := 7) setup
    _ = runSteps 6 (s.workedOn r2.byte e4 4) := runSteps_succ prescaled
    _ = runSteps 3 (s.workedOn r6.byte e7 7) := runSteps_add (n := 3) woken
    _ = _ := mode2

/-- A bound block accepts SET_FREQUENCY with a frequency other than 0 (R450, R451). -/
theorem exec_setFrequency_nonzero {s : State} {freq : BitVec 32} (hb : s.bound = true) (hf : freq ≠ 0) :
    exec (.setFrequency freq) s = .next (s.accepted (.setFrequency freq)) :=
  exec_of_preCheck_none (by simpa [preCheck, Instr.wellFormed, hb] using hf)

/-- Settles O25: the script of an accepted SET_FREQUENCY is `SF`, with the prescale in `S.p` from its acceptance. -/
theorem setFrequencyRunsItsTenTransactions : Obligations.SetFrequencyRunsItsTenTransactions := by
  rintro s freq qs r1 r2 r3 r4 r5 r6 r7 r8 r9 r10 e hr hb hf rfl ha hc
  have hrun := runSteps_sf (s := s.accepted (.setFrequency freq)) hr rfl rfl ha hc
  exact ⟨_, _, exec_setFrequency_nonzero hb hf, hrun, State.complete_respondsOk _ _, rfl,
    (Env.blockTxns_answerAll ha).1, ⟨rfl, rfl⟩, ⟨rfl, rfl, rfl, rfl⟩, rfl, rfl⟩

end Sys2Proof.Machine
end

section
/-! SET_FREQUENCY on the double (20_memory R231 to R235; 42_frequency R454 to R457; 70_reset R715): what its writes
store, and what a failed PRE_SCALE write leaves. -/

namespace Sys2Proof.Machine

/-! ### The writes of SET_FREQUENCY -/

/-- The double after RMW1's write-back (R423). -/
def Double.rmw1 (p : Params) (d : Double) (req : BitVec 16) : Double :=
  d.write p [p.regMode1, m1 p (d.reg p.regMode1) req]

/-- The double after RMW2's write-back (R435). -/
def Double.rmw2 (p : Params) (d : Double) (req : BitVec 8) : Double :=
  d.write p [p.regMode2, m2 p (d.reg p.regMode2) req]

/-- The double asleep with its new prescale, after R454's first four transactions. -/
def Double.prescaled (p : Params) (d : Double) (pre : Byte) : Double :=
  (d.rmw1 p (req1SleepSetup p)).write p [p.regPreScale, pre]

/-- The double after R454's ten transactions. -/
def Double.tuned (p : Params) (d : Double) (pre : Byte) : Double :=
  ((d.prescaled p pre).rmw1 p (req1Wake p)).rmw2 p req2Freq

/-- R8: the eight MODE1 positions are distinct. -/
theorem positions_nodup_of_wf {p : Params} (hp : p.wf) : p.m1.positions.Nodup := by
  obtain ⟨-, -, h, -⟩ := hp
  exact h

theorem Double.wf_rmw1 {p : Params} {d : Double} (req : BitVec 16) (hwf : Memory.wf d.regs = true) :
    Memory.wf (d.rmw1 p req).regs = true := Double.wf_write _ _ _ hwf

theorem Double.wf_prescaled {p : Params} {d : Double} (pre : Byte) (hwf : Memory.wf d.regs = true) :
    Memory.wf (d.prescaled p pre).regs = true := Double.wf_write _ _ _ (Double.wf_rmw1 _ hwf)

section registers
variable {p : Params} {d : Double} (hp : p.wf) (hwf : Memory.wf d.regs = true)
include hp hwf

theorem Double.reg_rmw1 (req : BitVec 16) (x : Byte) :
    (d.rmw1 p req).reg x =
      if x = p.regMode1 then m1 p (d.reg p.regMode1) req &&& ~~~bit p.m1.restart.val else d.reg x := by
  obtain ⟨-, hne, -⟩ := registers_ne_of_wf hp
  split
  · next hx => rw [hx]; exact Double.reg_write_mode1 _ hwf hne
  · next hx => exact Double.reg_write_two_other hwf _ hx

theorem Double.reg_rmw2 (req : BitVec 8) (x : Byte) :
    (d.rmw2 p req).reg x = if x = p.regMode2 then m2 p (d.reg p.regMode2) req else d.reg x := by
  obtain ⟨hne, -, hnePre⟩ := registers_ne_of_wf hp
  split
  · next hx => rw [hx]; exact Double.reg_write_two_plain hwf _ ⟨hne.symm, hnePre⟩
  · next hx => exact Double.reg_write_two_other hwf _ hx

/-- R233: PRE_SCALE takes a byte written while the chip is asleep. -/
theorem Double.reg_write_preScale_asleep (hasleep : d.asleep p = true) (v x : Byte) :
    (d.write p [p.regPreScale, v]).reg x = if x = p.regPreScale then v else d.reg x := by
  obtain ⟨-, hne, -⟩ := registers_ne_of_wf hp
  split
  · next hx =>
    have hasleep' : Double.asleep p { d with ptr := p.regPreScale } = true := hasleep
    rw [hx, Double.write_two, Double.reg_store (d := { d with ptr := p.regPreScale }) (h := hwf), hasleep']
    simp [hne.symm]
  · next hx => exact Double.reg_write_two_other hwf _ hx

/-- R455: the setup request puts the chip to sleep; SLEEP is not the RESTART bit that the double clears. -/
theorem Double.asleep_rmw1_setup : (d.rmw1 p (req1SleepSetup p)).asleep p = true := by
  have hpos := positions_nodup_of_wf hp
  have hne : p.m1.sleep ≠ p.m1.restart :=
    (Mode1Flag.position_injective hpos).ne (by decide : Mode1Flag.sleep ≠ .restart)
  rw [Double.asleep, Double.reg_rmw1 hp hwf, if_pos rfl, BitVec.getLsbD_and,
    (setupSleepsAndWakeWakes p _ p.m1.sleep hpos).1, BitVec.getLsbD_not, getLsbD_bit]
  simp [Fin.val_ne_of_ne hne]

theorem Double.reg_prescaled (pre x : Byte) :
    (d.prescaled p pre).reg x =
      if x = p.regPreScale then pre
      else if x = p.regMode1 then m1 p (d.reg p.regMode1) (req1SleepSetup p) &&& ~~~bit p.m1.restart.val
      else d.reg x := by
  rw [Double.prescaled, Double.reg_write_preScale_asleep hp (Double.wf_rmw1 _ hwf) (Double.asleep_rmw1_setup hp hwf),
    Double.reg_rmw1 hp hwf]

theorem Double.reg_tuned_preScale (pre : Byte) : (d.tuned p pre).reg p.regPreScale = pre := by
  obtain ⟨-, hne1, hne2⟩ := registers_ne_of_wf hp
  have hwf' := Double.wf_prescaled (p := p) pre hwf
  rw [Double.tuned, Double.reg_rmw2 hp (Double.wf_rmw1 _ hwf'), if_neg hne2.symm, Double.reg_rmw1 hp hwf',
    if_neg hne1.symm, Double.reg_prescaled hp hwf, if_pos rfl]

theorem Double.reg_tuned_mode2 (pre : Byte) :
    (d.tuned p pre).reg p.regMode2 = m2 p (d.reg p.regMode2) req2Freq := by
  obtain ⟨hne, -, hnePre⟩ := registers_ne_of_wf hp
  have hwf' := Double.wf_prescaled (p := p) pre hwf
  rw [Double.tuned, Double.reg_rmw2 hp (Double.wf_rmw1 _ hwf'), if_pos rfl, Double.reg_rmw1 hp hwf', if_neg hne.symm,
    Double.reg_prescaled hp hwf, if_neg hnePre, if_neg hne.symm]

theorem Double.reg_tuned_mode1 (pre : Byte) :
    (d.tuned p pre).reg p.regMode1 =
      m1 p (m1 p (d.reg p.regMode1) (req1SleepSetup p) &&& ~~~bit p.m1.restart.val) (req1Wake p) &&&
        ~~~bit p.m1.restart.val := by
  obtain ⟨hne, hnePre, -⟩ := registers_ne_of_wf hp
  have hwf' := Double.wf_prescaled (p := p) pre hwf
  rw [Double.tuned, Double.reg_rmw2 hp (Double.wf_rmw1 _ hwf'), if_neg hne, Double.reg_rmw1 hp hwf', if_pos rfl,
    Double.reg_prescaled hp hwf, if_neg hnePre, if_pos rfl]

theorem Double.reg_tuned_other (pre : Byte) {x : Byte} (h1 : x ≠ p.regMode1) (h2 : x ≠ p.regMode2)
    (hpre : x ≠ p.regPreScale) : (d.tuned p pre).reg x = d.reg x := by
  have hwf' := Double.wf_prescaled (p := p) pre hwf
  rw [Double.tuned, Double.reg_rmw2 hp (Double.wf_rmw1 _ hwf'), if_neg h2, Double.reg_rmw1 hp hwf', if_neg h1,
    Double.reg_prescaled hp hwf, if_neg hpre, if_neg h1]

/-- R454, R456: MODE1 is left awake, with AI set, ALLCALL clear and the RESTART bit cleared by the stores (R233). -/
theorem Double.getLsbD_reg_tuned_mode1 (pre : Byte) (k : Fin 8) :
    ((d.tuned p pre).reg p.regMode1).getLsbD k.val =
      (if k = p.m1.ai then true
       else if k = p.m1.sleep ∨ k = p.m1.allcall ∨ k = p.m1.restart then false
       else (d.reg p.regMode1).getLsbD k.val) := by
  have hpos := positions_nodup_of_wf hp
  have hinj := Mode1Flag.position_injective hpos
  have hsleep : p.m1.sleep ≠ p.m1.ai := hinj.ne (by decide : Mode1Flag.sleep ≠ .ai)
  have hrestart : p.m1.restart ≠ p.m1.ai := hinj.ne (by decide : Mode1Flag.restart ≠ .ai)
  have hcleared (w : Byte) : (w &&& ~~~bit p.m1.restart.val).getLsbD k.val =
      (if k = p.m1.restart then false else w.getLsbD k.val) := by
    rw [BitVec.getLsbD_and, BitVec.getLsbD_not, getLsbD_bit]
    by_cases hk : k = p.m1.restart <;> simp [hk, Fin.val_inj]
  rw [Double.reg_tuned_mode1 hp hwf, hcleared, (setupSleepsAndWakeWakes p _ k hpos).2, hcleared,
    (setupSleepsAndWakeWakes p _ k hpos).1]
  by_cases hk : k = p.m1.restart
  · simp [hk, hrestart]
  · by_cases hk' : k = p.m1.sleep
    · simp [hk', hsleep]
    · simp [hk, hk']

end registers

/-! ### An undisturbed double -/

theorem Double.Calm.write {d : Double} (hd : d.Calm) (p : Params) (bytes : List Byte) : (d.write p bytes).Calm := by
  rw [Double.Calm, Double.inject_write, Double.others_write]
  exact hd

/-- The answers of a chip to `SF`, with the bytes of its three reads. -/
def frequencyAnswers (byte2 byte6 byte9 : Byte) : List BusResponse :=
  [{ count := 1 }, { count := 1, byte := byte2 }, { count := 2 }, { count := 2 },
    { count := 1 }, { count := 1, byte := byte6 }, { count := 2 },
    { count := 1 }, { count := 1, byte := byte9 }, { count := 2 }]

/-- The double answers R454's ten requests in full, each read with the register's byte (R213). -/
theorem Env.answerAll_frequency_calm {p : Params} {e : Env} {d : Double} (hs : e.source = .double d) (hd : d.Calm)
    (c : Token) (pre : Byte) :
    ∃ byte2 byte6 byte9 e', e.answerAll p (frequencyRequests p c pre byte2 byte6 byte9) =
        some (frequencyAnswers byte2 byte6 byte9, e') ∧
      e'.source = .double (d.tuned p pre) := by
  obtain ⟨e3, a3, (src3 : e3.source = .double (d.rmw1 p (req1SleepSetup p)))⟩ :=
    Env.answerAll_rmw_calm hs hd c p.regMode1 (m1 p (d.reg p.regMode1) (req1SleepSetup p))
  have hd3 : (d.rmw1 p (req1SleepSetup p)).Calm := hd.write p _
  obtain ⟨e4, a4, (src4 : e4.source = .double (d.prescaled p pre))⟩ :=
    Env.answer_busWrite_calm src3 hd3 c [p.regPreScale, pre]
  have hd4 : (d.prescaled p pre).Calm := hd3.write p _
  obtain ⟨e7, a7, (src7 : e7.source = .double ((d.prescaled p pre).rmw1 p (req1Wake p)))⟩ :=
    Env.answerAll_rmw_calm src4 hd4 c p.regMode1 (m1 p ((d.prescaled p pre).reg p.regMode1) (req1Wake p))
  have hd7 : ((d.prescaled p pre).rmw1 p (req1Wake p)).Calm := hd4.write p _
  obtain ⟨e10, a10, src10⟩ := Env.answerAll_rmw_calm (p := p) src7 hd7 c p.regMode2
    (m2 p (((d.prescaled p pre).rmw1 p (req1Wake p)).reg p.regMode2) req2Freq)
  refine ⟨d.reg p.regMode1, (d.prescaled p pre).reg p.regMode1,
    ((d.prescaled p pre).rmw1 p (req1Wake p)).reg p.regMode2, e10, ?_, src10⟩
  rw [frequencyRequests_eq]
  exact (Env.answerAll_append_iff (rs := [_, _, _]) rfl).2 ⟨e3, a3, Env.answerAll_cons_of a4
    ((Env.answerAll_append_iff (rs := [_, _, _]) rfl).2 ⟨e7, a7, a10⟩)⟩

/-- Settles O56: the ten transactions against the double's answers, and the registers they leave. -/
theorem setFrequencyConfiguresTheDouble : Obligations.SetFrequencyConfiguresTheDouble := by
  intro s d freq hr hb hf hp hsrc hd hwf
  obtain ⟨byte2, byte6, byte9, e, ha, hsrc'⟩ :=
    Env.answerAll_frequency_calm (p := s.params) hsrc hd s.chan (prescale s.params freq.toNat)
  obtain ⟨t, u, hexec, hrun, hok, rfl, -⟩ := setFrequencyRunsItsTenTransactions s freq _ { count := 1 }
    { count := 1, byte := byte2 } { count := 2 } { count := 2 } { count := 1 } { count := 1, byte := byte6 }
    { count := 2 } { count := 1 } { count := 1, byte := byte9 } { count := 2 } e hr hb hf rfl ha rfl
  have hreg := State.chipReg_of_double hsrc'
  refine ⟨t, u, _, hexec, hrun, hok, ?_, ?_, hreg _, Double.getLsbD_reg_tuned_mode1 hp hwf _, fun x h1 h2 hpre => ?_⟩
  · rw [hreg, Double.reg_tuned_preScale hp hwf]
  · rw [hreg, Double.reg_tuned_mode2 hp hwf]
  · rw [hreg, Double.reg_tuned_other hp hwf _ h1 h2 hpre, State.chipReg_of_double hsrc]

/-! ### R457: a failed PRE_SCALE write -/

/-- SET_FREQUENCY ends at a PRE_SCALE write that is not answered in full, with the binding kept. -/
theorem runSteps_setFrequency_preScale_fails {s : State} {freq : BitVec 32} {r1 r2 r3 r4 : BusResponse} {e3 e4 : Env}
    (hr : s.rst = false)
    (ha : s.env.answerAll s.params
      (rmwRequests s.chan s.params.regMode1 (m1 s.params r2.byte (req1SleepSetup s.params))) = some ([r1, r2, r3], e3))
    (ha4 : e3.answer s.params (.busWrite s.chan [s.params.regPreScale, prescale s.params freq.toNat]) = some (r4, e4))
    (c1 : r1.count = 1) (c2 : r2.count = 1) (c3 : r3.count = 2) (c4 : r4.count ≠ 2) :
    ∃ u, runSteps 4 (s.accepted (.setFrequency freq)) = .next u ∧ u.RespondsFail .shortTransfer ∧ u.env = e4 ∧
      SameBinding s u := by
  have hscript := scriptSf_eq s.params
  have setup := runSteps_rmw_inner (s := s.accepted (.setFrequency freq)) (f := .m1 (req1SleepSetup s.params)) hr rfl
    ha c1 c2 c3 hscript
  have failed := step_fails (s := (s.accepted (.setFrequency freq)).workedOn r2.byte e3 3)
    (op := .wk s.params.regPreScale .prescale) hr rfl (getElem?_of_drop (n := 0) hscript 3) (by simp [MicroOp.readsW])
    ha4 (by simp [MicroOp.succeeds, c4])
  exact ⟨_, (runSteps_add (n := 1) setup).trans (runSteps_succ failed), State.raise_respondsFail _ _, rfl, rfl, rfl⟩

theorem Double.respond_write_injected {d : Double} {k : Nat} (h : k ∈ d.inject) (p : Params) (c : Token)
    (bytes : List Byte) :
    d.respond p k (.busWrite c bytes) = ({ count := 0 }, { d with ptr := Config.freePointer k }) := if_pos h

/-- A double at which no other agent writes answers a read-modify-write in full where it is not made to fail. -/
theorem Env.answerAll_rmw_double {p : Params} {e : Env} {d : Double} (hs : e.source = .double d)
    (hothers : d.others = []) (hk : ∀ k < 3, e.txns + k ∉ d.inject) (c : Token) (a v : Byte) :
    ∃ e', e.answerAll p (rmwRequests c a v) =
        some ([{ count := 1 }, { count := 1, byte := d.reg a }, { count := 2 }], e') ∧
      e'.source = .double (d.write p [a, v]) ∧ e'.txns = e.txns + 3 := by
  have never (k : Nat) : d.othersAt k = [] := Double.othersAt_calm d k hothers
  obtain ⟨e1, a1, src1, txns1, -⟩ := Env.answer_busWrite_double (p := p) hs (never _) c [a] (hk 0 (by omega))
  obtain ⟨e2, a2, src2, txns2, -⟩ := Env.answer_busRead_double (p := p) src1 (never _) c 1
    (by rw [txns1]; exact hk 1 (by omega))
  obtain ⟨e3, a3, src3, txns3, -⟩ := Env.answer_busWrite_double (p := p) src2 (never _) c [a, v]
    (by rw [txns2, txns1]; exact hk 2 (by omega))
  exact ⟨e3, Env.answerAll_cons_of a1 (Env.answerAll_cons_of a2 (Env.answerAll_cons_of a3 rfl)), src3, by omega⟩

/-- Settles O59: the setup request reaches the double, which is asleep when the injected failure ends the command. -/
theorem failedPrescaleWriteLeavesTheDoubleAsleep : Obligations.FailedPrescaleWriteLeavesTheDoubleAsleep := by
  intro s d freq hr hb hf hp hsrc hinject hothers hwf
  obtain ⟨-, hne, -⟩ := registers_ne_of_wf hp
  obtain ⟨e3, ha, (src3 : e3.source = .double (d.rmw1 s.params (req1SleepSetup s.params))), htxns⟩ :=
    Env.answerAll_rmw_double (p := s.params) hsrc hothers
    (fun k hk => by simp [hinject, hk.ne]) s.chan s.params.regMode1
    (m1 s.params (d.reg s.params.regMode1) (req1SleepSetup s.params))
  have hothers' : (d.rmw1 s.params (req1SleepSetup s.params)).others = [] := (Double.others_write _ _ _).trans hothers
  have hinject' : e3.txns ∈ (d.rmw1 s.params (req1SleepSetup s.params)).inject := by
    rw [Double.rmw1, Double.inject_write, hinject, htxns]
    exact List.mem_singleton_self _
  obtain ⟨e4, ha4, src4, -⟩ := Env.answer_double (p := s.params) src3 (Double.othersAt_calm _ _ hothers')
    (.busWrite s.chan [s.params.regPreScale, prescale s.params freq.toNat])
  rw [Double.runOthers, List.foldl_nil, Double.respond_write_injected hinject'] at ha4 src4
  obtain ⟨u, hrun, hfail, rfl, hbound, -⟩ :=
    runSteps_setFrequency_preScale_fails (r2 := { count := 1, byte := d.reg s.params.regMode1 }) hr ha ha4 rfl rfl rfl
      (show (0 : Int) ≠ 2 by decide)
  have hreg (x : Byte) : u.chipReg x = some ((d.rmw1 s.params (req1SleepSetup s.params)).reg x) :=
    State.chipReg_of_double src4 x
  refine ⟨_, u, (d.rmw1 s.params (req1SleepSetup s.params)).reg s.params.regMode1, exec_setFrequency_nonzero hb hf,
    hrun, hfail, hbound.trans hb, ?_, ?_, hreg _, Double.asleep_rmw1_setup hp hwf⟩
  · rw [Env.blockTxns_answer ha4, (Env.blockTxns_answerAll ha).1]
    simp [rmwRequests]
  · rw [hreg, Double.reg_rmw1 hp hwf, if_neg hne.symm]

end Sys2Proof.Machine
end

section
/-! The run of SET_CHANNEL (43_channel_writer R470, R471) on any bus. -/

namespace Sys2Proof.Machine

/-! ### R471: the five bytes -/

theorem chanAddr_eq_ofNat (p : Params) (id : BitVec 8) :
    chanAddr p id = BitVec.ofNat 8 (p.regLed0OnL.toNat + 4 * id.toNat) := by
  apply BitVec.eq_of_toNat_eq
  rw [toNat_chanAddr, BitVec.toNat_ofNat]

theorem lowByte_eq_setWidth_and (v : BitVec 16) : lowByte v = (v &&& 0xFF#16).setWidth 8 := by
  have hmask : (0xFF#16).setWidth 8 = BitVec.allOnes 8 := rfl
  rw [BitVec.setWidth_and, hmask, BitVec.and_allOnes]
  exact (BitVec.setWidth_eq_extractLsb' (by decide)).symm

theorem highByte_eq_setWidth_shiftRight (v : BitVec 16) : highByte v = (v >>> 8).setWidth 8 := rfl

/-- The bytes of `CHANNEL`'s micro-operation (R403), as R471 writes them. -/
theorem channelBytes_eq (p : Params) (id : BitVec 8) (on off : BitVec 16) :
    [chanAddr p id, lowByte on, highByte on, lowByte off, highByte off] =
      [BitVec.ofNat 8 (p.regLed0OnL.toNat + 4 * id.toNat), (on &&& 0xFF#16).setWidth 8, (on >>> 8).setWidth 8,
        (off &&& 0xFF#16).setWidth 8, (off >>> 8).setWidth 8] := by
  simp only [chanAddr_eq_ofNat, lowByte_eq_setWidth_and, highByte_eq_setWidth_shiftRight]

/-! ### R470, R471: the run -/

/-- R408: the five-byte write succeeds exactly on the count 5, and has no effect of its own. -/
theorem MicroOp.finish_w5 (a b0 b1 b2 b3 : Byte) (r : BusResponse) (s : State) :
    (MicroOp.w5 a b0 b1 b2 b3).finish r s =
      if r.count = 5 then s.advance (.w5 a b0 b1 b2 b3) else s.raise .shortTransfer :=
  MicroOp.finish_of_busWrite (op := .w5 a b0 b1 b2 b3) (bytes := [a, b0, b1, b2, b3]) (s := s) rfl r s

/-- A bound block accepts SET_CHANNEL with any id and ticks (R470). -/
theorem exec_setChannel_bound {s : State} (hb : s.bound = true) (id : BitVec 8) (on off : BitVec 16) :
    exec (.setChannel id on off) s = .next (s.accepted (.setChannel id on off)) :=
  exec_of_preCheck_none (by simp [preCheck, Instr.wellFormed, hb])

/-- An accepted SET_CHANNEL ends in one step, OK when all five bytes are written; it has no effect on the block. -/
theorem step_accepted_setChannel {s : State} {id : BitVec 8} {on off : BitVec 16} {r : BusResponse} {e : Env}
    (hr : s.rst = false)
    (ha : s.env.answer s.params
      (.busWrite s.chan [chanAddr s.params id, lowByte on, highByte on, lowByte off, highByte off]) = some (r, e)) :
    ∃ u, step (s.accepted (.setChannel id on off)) = .next u ∧
      (if r.count = 5 then u.RespondsOk else u.RespondsFail .shortTransfer) ∧
      u.env = e ∧ SameBinding s u ∧ SameCommandSide s u ∧ u.w = s.w ∧ u.p = s.p := by
  have hscript : scriptOf s.params (.setChannel id on off) =
      [.w5 (chanAddr s.params id) (lowByte on) (highByte on) (lowByte off) (highByte off)] := rfl
  have hpre : neededPrescale s.params (.setChannel id on off) = none := rfl
  refine ⟨_, step_accepted_single hr hscript rfl ha, ?_⟩
  rw [MicroOp.finish_w5]
  split
  · rw [State.advance_last (by simp [hscript])]
    exact ⟨State.complete_respondsOk _ _, by simp [SameBinding, SameCommandSide, hpre]⟩
  · exact ⟨State.raise_respondsFail _ _, by simp [SameBinding, SameCommandSide, hpre]⟩

/-- Settles O21: the script is one write of the five bytes, so the step after the acceptance ends the command. -/
theorem setChannelWritesItsFiveBytes : Obligations.SetChannelWritesItsFiveBytes := by
  rintro s id on off q r e hr hb rfl ha
  rw [← channelBytes_eq] at ha ⊢
  obtain ⟨u, hstep, hresponse, rfl, hframe⟩ := step_accepted_setChannel hr ha
  exact ⟨_, u, exec_setChannel_bound hb id on off, hstep, hresponse, rfl, Env.blockTxns_answer ha, hframe⟩

end Sys2Proof.Machine
end

section
/-! A failed OPEN (44_lifecycle R492): what it leaves of the binding. -/

namespace Sys2Proof.Machine

/-! ### R402, R413: a step that fails the command -/

/-- An executing command that a step ends with a failure was ended by its micro-operation's failure. -/
theorem exists_failed_of_step {s t : State} (hr : s.rst = false) (hp : s.phase = .busy) (h : step s = .next t)
    (hidle : t.phase = .idle) (hfail : t.rspStatus = .fail) :
    ∃ op r e, s.script[s.upc]? = some op ∧ op.succeeds r = false ∧
      t = (op.spoil (s.withEnv e)).raise op.failCause := by
  rw [step_busy hr hp] at h
  obtain ⟨-, h'⟩ | ⟨_, -, -, -, h'⟩ | ⟨_, -, -, -, h'⟩ | ⟨op, r, e, ho, -, -, h'⟩ := runMicroOp_cases s <;>
    cases h.symm.trans h'
  · cases hp.symm.trans hidle
  · cases hs : op.succeeds r with
    | false => exact ⟨op, r, e, ho, hs, MicroOp.finish_failure hs⟩
    | true =>
      rw [MicroOp.finish_success hs] at hidle hfail
      have hresp := State.advance_response (op.effect r (s.withEnv e)) op
      split at hresp
      · obtain ⟨-, -, hok, -⟩ := hresp
        cases hok.symm.trans hfail
      · obtain ⟨hphase, -⟩ := hresp
        rw [hphase, MicroOp.effect_phase, State.withEnv_phase, hp] at hidle
        cases hidle

/-! ### OPEN's first two micro-operations -/

/-- The micro-operations that set up the Device Handle, which run unbound (R409, R410). -/
def MicroOp.setsUpBinding : MicroOp → Bool
  | .bopen _ | .bbind _ => true
  | .ptr _ | .wk _ _ | .rd | .wb _ _ | .w5 _ _ _ _ _ | .bclose => false

theorem MicroOp.not_setsUpBinding_of_not_managesBinding {op : MicroOp} (h : op.managesBinding = false) :
    op.setsUpBinding = false := by
  cases op with
  | bopen _ | bbind _ => cases h
  | ptr _ | wk _ _ | rd | wb _ _ | w5 _ _ _ _ _ | bclose => rfl

/-- R208: the two causes of a micro-operation's failure; BCLOSE never fails. -/
theorem MicroOp.failCause_of_not_succeeds {op : MicroOp} {r : BusResponse} (h : op.succeeds r = false) :
    op.failCause = if op.setsUpBinding = true then .transport else .shortTransfer := by
  cases op with
  | bclose => cases h
  | ptr _ | wk _ _ | rd | wb _ _ | w5 _ _ _ _ _ | bopen _ | bbind _ => rfl

theorem bound_of_scriptTailOk_cons {fresh bound : Bool} {op : MicroOp} {rest : List MicroOp}
    (h : scriptTailOk fresh bound (op :: rest) = true) : bound = !op.setsUpBinding := by
  cases op <;>
    · simp only [scriptTailOk, Bool.and_eq_true, Bool.not_eq_true'] at h
      simp [MicroOp.setsUpBinding, h]

/-- R102: the block is unbound exactly while the binding is set up. -/
theorem State.Inv.bound_eq {s : State} {op : MicroOp} (hi : s.Inv) (hp : s.phase = .busy)
    (ho : s.script[s.upc]? = some op) : s.bound = !op.setsUpBinding := by
  obtain ⟨-, -, htail, -⟩ := hi.1 hp
  obtain ⟨hlt, hget⟩ := List.getElem?_eq_some_iff.1 ho
  rw [List.drop_eq_getElem_cons hlt, hget] at htail
  exact bound_of_scriptTailOk_cons htail

/-- R491: steps 1 and 2 of OPEN, counted from 0, set up the binding, and no later one does. -/
theorem setsUpBinding_iff_of_scriptOpen {p : Params} {path : Token} {addr7 : BitVec 7} {k : Nat} {op : MicroOp}
    (h : (scriptOpen p path addr7)[k]? = some op) : op.setsUpBinding = true ↔ k ≤ 1 := by
  match k, h with
  | 0, h | 1, h => cases h; simp [MicroOp.setsUpBinding]
  | k + 2, h =>
    have hmem : op ∈ scriptRmw1 p 0 ++ scriptRmw2 p 0 ++ scriptRmw2 p req2Tp ++ scriptSf p :=
      List.mem_of_getElem? (i := k) h
    have hmanages : op.managesBinding = false := by
      simp only [List.mem_append] at hmem
      obtain ((h1 | h2) | h2) | hsf := hmem
      · exact not_managesBinding_of_mem_scriptRmw1 h1
      · exact not_managesBinding_of_mem_scriptRmw2 h2
      · exact not_managesBinding_of_mem_scriptRmw2 h2
      · exact not_managesBinding_of_mem_scriptSf hsf
    simp [MicroOp.not_setsUpBinding_of_not_managesBinding hmanages]

/-- While a command executes the script is that command's (R400, R403). -/
theorem State.Inv.script_eq {s : State} {i : Instr} (hi : s.Inv) (hp : s.phase = .busy) (hd : decode s.cmd = .ok i) :
    s.script = scriptOf s.params i := by
  obtain ⟨hlatched, -⟩ := hi.1 hp
  obtain ⟨j, hj, hscript, -⟩ := State.scriptLatched_iff.1 hlatched
  cases hd.symm.trans hj
  exact hscript

/-- Settles O20: the failing micro-operation writes no binding, and the invariant ties the binding before it, like its
cause, to its being one of the first two. -/
theorem bindingAfterFailedOpen : Obligations.BindingAfterFailedOpen := by
  intro s t path addr7 hi hr hp hd h hidle hfail
  obtain ⟨op, r, e, ho, hs, rfl⟩ := exists_failed_of_step hr hp h hidle hfail
  have hbound := hi.bound_eq hp ho
  have hcause := MicroOp.failCause_of_not_succeeds hs
  rw [hi.script_eq hp hd] at ho
  have hfirst := setsUpBinding_iff_of_scriptOpen ho
  refine ⟨State.outstanding_idle rfl, fun hle => ?_, fun hle => ?_⟩
  · have hsets : op.setsUpBinding = true := hfirst.2 hle
    simp [hbound, hcause, hsets]
  · have hsets : op.setsUpBinding = false := Bool.eq_false_iff.2 (hfirst.not.2 (by omega))
    simp [hbound, hcause, hsets]

end Sys2Proof.Machine
end

section
/-! The run of OPEN (44_lifecycle R490, R491) on any bus. -/

namespace Sys2Proof.Machine

/-! ### R491: the pieces of OPEN's script -/

theorem scriptOpen_eq (p : Params) (path : Token) (addr7 : BitVec 7) :
    scriptOpen p path addr7 =
      .bopen path :: .bbind addr7 :: (scriptEmpty p p.regMode1 ++ (scriptEmpty p p.regMode2 ++
        .ptr p.regMode2 :: .rd :: .wb p.regMode2 (.m2 req2Tp) :: scriptSf p)) := by
  rw [scriptOpen, scriptRmw1_zero, scriptRmw2_zero, scriptRmw2_of_ne (by decide)]
  simp

theorem drop_scriptOpen (p : Params) (path : Token) (addr7 : BitVec 7) :
    (scriptOpen p path addr7).drop 7 = scriptSf p :=
  List.drop_left' (by rw [scriptRmw1_zero, scriptRmw2_zero, scriptRmw2_of_ne (by decide)]; simp)

theorem drop_of_drop_append {l m rest : List MicroOp} {n : Nat} (h : l.drop n = m ++ rest) :
    l.drop (n + m.length) = rest := by
  rw [drop_add_of_drop h, List.drop_left]

/-- The block with its Device Handle set up on a channel. -/
def State.boundOn (s : State) (chan : Token) : State := { s with chan := chan, bound := true }

/-- R409, R410: BOPEN and BBIND inside a script, both answered with success. -/
theorem runSteps_bind_of_drop {s : State} {path : Token} {addr7 : BitVec 7} {rest : List MicroOp}
    {r1 r2 : BusResponse} {e1 e2 : Env} (hr : s.rst = false) (hp : s.phase = .busy)
    (hscript : s.script.drop s.upc = .bopen path :: .bbind addr7 :: rest) (hrest : rest ≠ [])
    (a1 : s.env.answer s.params (.busOpen path) = some (r1, e1))
    (a2 : e1.answer s.params (.busBind r1.chan addr7) = some (r2, e2)) (ok1 : r1.ok = true) (ok2 : r2.ok = true) :
    runSteps 2 s = .next (((s.boundOn r1.chan).withEnv e2).withUpc (s.upc + 2)) := by
  have hlen : s.script.length - s.upc = rest.length + 2 := by rw [← List.length_drop, hscript]; rfl
  have hpos : 0 < rest.length := List.length_pos_iff.2 hrest
  have opened := step_inner (op := .bopen path) hr hp (getElem?_of_drop hscript 0) (by simp [MicroOp.readsW]) a1 ok1
    (by omega)
  have bound := step_inner (s := ((MicroOp.bopen path).effect r1 (s.withEnv e1)).withUpc (s.upc + 1))
    (op := .bbind addr7) hr hp (getElem?_of_drop hscript 1) (by simp [MicroOp.readsW]) a2 ok2 (by simp; omega)
  exact (runSteps_succ (n := 1) opened).trans (runSteps_succ (n := 0) bound)

/-- R421, R431: an empty request inside a script, answered in full, has no effect on the block. -/
theorem step_empty_of_drop {s : State} {a : Byte} {rest : List MicroOp} {r : BusResponse} {e : Env}
    (hr : s.rst = false) (hp : s.phase = .busy) (hscript : s.script.drop s.upc = scriptEmpty s.params a ++ rest)
    (hrest : rest ≠ []) (ha : s.env.answer s.params (.busWrite s.chan (emptyBytes s.params a)) = some (r, e))
    (hc : r.count = (emptyBytes s.params a).length) : step s = .next ((s.withEnv e).withUpc (s.upc + 1)) := by
  have hlen : s.script.length - s.upc = 1 + rest.length := by simp [← List.length_drop, hscript]
  have hpos : 0 < rest.length := List.length_pos_iff.2 hrest
  obtain ⟨op, hop, hw, hrequest⟩ := exists_scriptEmpty_eq s.params a
  rw [hop] at hscript
  rw [step_answered hr hp (getElem?_of_drop hscript 0) (by simp [hw]) ((hrequest s).symm ▸ ha),
    MicroOp.finish_of_busWrite (hrequest s), if_pos hc, State.advance_inner (by simp; omega)]
  rfl

/-! ### R491: the seventeen transactions -/

/-- An unbound block accepts OPEN (R490). -/
theorem exec_openDevice_unbound {s : State} (hb : s.bound = false) (path : Token) (addr7 : BitVec 7) :
    exec (.openDevice path addr7) s = .next (s.accepted (.openDevice path addr7)) :=
  exec_of_preCheck_none (by simp [preCheck, Instr.wellFormed, hb])

/-- R491's requests before those of `SF`, for the channel opened and the byte read. -/
def openSetupRequests (p : Params) (path : Token) (addr7 : BitVec 7) (chan : Token) (byte : Byte) : List BusRequest :=
  [.busOpen path, .busBind chan addr7, .busWrite chan (emptyBytes p p.regMode1),
    .busWrite chan (emptyBytes p p.regMode2)] ++ mode2Requests p chan req2Tp byte

/-- OPEN's script up to `SF`, its seven requests answered in full. -/
theorem runSteps_openSetup {s : State} {path : Token} {addr7 : BitVec 7} {r1 r2 r3 r4 r5 r6 r7 : BusResponse} {e : Env}
    (hr : s.rst = false) (hp : s.phase = .busy) (hscript : s.script.drop s.upc = scriptOpen s.params path addr7)
    (ha : s.env.answerAll s.params (openSetupRequests s.params path addr7 r1.chan r6.byte) =
      some ([r1, r2, r3, r4, r5, r6, r7], e))
    (ok1 : r1.ok = true) (ok2 : r2.ok = true) (c3 : r3.count = (emptyBytes s.params s.params.regMode1).length)
    (c4 : r4.count = (emptyBytes s.params s.params.regMode2).length)
    (hc : [r5.count, r6.count, r7.count] = [1, 1, 2]) :
    runSteps 7 s = .next ((s.boundOn r1.chan).workedOn r6.byte e 7) := by
  simp only [List.cons.injEq, and_true] at hc
  obtain ⟨c5, c6, c7⟩ := hc
  obtain ⟨e1, a1, ha⟩ := Env.answerAll_cons ha
  obtain ⟨e2, a2, ha⟩ := Env.answerAll_cons ha
  obtain ⟨e3, a3, ha⟩ := Env.answerAll_cons ha
  obtain ⟨e4, a4, a7⟩ := Env.answerAll_cons ha
  rw [scriptOpen_eq] at hscript
  have d2 := drop_add_of_drop hscript 2
  have d3 := drop_of_drop_append d2
  have d4 := drop_of_drop_append d3
  rw [scriptSf_eq] at d4
  simp only [length_scriptEmpty] at d3 d4
  have bound := runSteps_bind_of_drop hr hp hscript (by simp) a1 a2 ok1 ok2
  have emptied1 := step_empty_of_drop (s := ((s.boundOn r1.chan).withEnv e2).withUpc (s.upc + 2)) hr hp d2 (by simp)
    a3 c3
  have emptied2 := step_empty_of_drop (s := ((s.boundOn r1.chan).withEnv e3).withUpc (s.upc + 3)) hr hp d3 (by simp)
    a4 c4
  have mode2 := runSteps_rmw_inner (s := ((s.boundOn r1.chan).withEnv e4).withUpc (s.upc + 4)) (f := .m2 req2Tp) hr hp
    a7 c5 c6 c7 d4
  calc runSteps 7 s = runSteps 5 (((s.boundOn r1.chan).withEnv e2).withUpc (s.upc + 2)) := runSteps_add (n := 5) bound
    _ = runSteps 4 (((s.boundOn r1.chan).withEnv e3).withUpc (s.upc + 3)) := runSteps_succ emptied1
    _ = runSteps 3 (((s.boundOn r1.chan).withEnv e4).withUpc (s.upc + 4)) := runSteps_succ emptied2
    _ = _ := mode2

/-- Settles O26: OPEN's setup, then `SF` with the prescale in `S.p` from the acceptance. -/
theorem openRunsItsSeventeenTransactions : Obligations.OpenRunsItsSeventeenTransactions := by
  rintro s path addr7 qs r1 r2 r3 r4 r5 r6 r7 r8 r9 r10 r11 r12 r13 r14 r15 r16 r17 e hr hb rfl ha ok1 ok2 c3 c4 hc hc'
  obtain ⟨e7, ha7, ha17⟩ := (Env.answerAll_append_iff (rs := [r1, r2, r3, r4, r5, r6, r7]) rfl).1 ha
  have setup := runSteps_openSetup (s := s.accepted (.openDevice path addr7)) hr rfl rfl ha7 ok1 ok2 c3 c4 hc
  have tuned := runSteps_sf (s := ((s.accepted (.openDevice path addr7)).boundOn r1.chan).workedOn r6.byte e7 7) hr rfl
    (drop_scriptOpen s.params path addr7) ha17 hc'
  exact ⟨_, _, exec_openDevice_unbound hb path addr7, (runSteps_add (n := 10) setup).trans tuned,
    State.complete_respondsOk _ _, rfl, (Env.blockTxns_answerAll ha).1, rfl, rfl, ⟨rfl, rfl, rfl, rfl⟩, rfl, rfl⟩

end Sys2Proof.Machine
end

section
/-! CLOSE (44_lifecycle R494, R496): its word, and its run on any bus. -/

namespace Sys2Proof.Machine

theorem decode_eq_closeDevice_iff {w : CmdWord} : decode w = .ok .closeDevice ↔ w = 0x0000000000000001 := by
  have hword : encode .closeDevice = 0x0000000000000001 := rfl
  rw [← hword]
  refine ⟨fun h => (encodeOfDecodeIsTheWord w _ h).1.symm, ?_⟩
  rintro rfl
  exact decodeOfEncodeIsTheInstruction .closeDevice rfl

/-- R411: an accepted CLOSE ends in one step, OK on every answer, with the close status on the response port and the
block unbound. -/
theorem step_accepted_closeDevice {s : State} {r : BusResponse} {e : Env} (hr : s.rst = false)
    (ha : s.env.answer s.params (.busClose s.chan) = some (r, e)) :
    ∃ u, step (s.accepted .closeDevice) = .next u ∧ u.RespondsOk ∧ u.rspClose = r.status ∧ u.bound = false ∧
      u.env = e ∧ u.chan = s.chan ∧ SameCommandSide s u ∧ u.w = s.w ∧ u.p = s.p := by
  refine ⟨_, step_accepted_single hr rfl rfl ha, ?_⟩
  rw [MicroOp.finish_success rfl, State.advance_last rfl]
  exact ⟨State.complete_respondsOk _ _, rfl, rfl, rfl, rfl, ⟨rfl, rfl, rfl, rfl⟩, rfl, rfl⟩

/-- Settles O27: the word is the encoder's, and the script is the one BCLOSE, which never fails. -/
theorem closePassesStatusThroughAndUnbinds : Obligations.ClosePassesStatusThroughAndUnbinds := by
  refine ⟨fun w => decode_eq_closeDevice_iff, fun s hb => ?_, fun s r e hr hb ha => ?_⟩
  · refine ⟨s.raise .notBound, ?_, s.raise_respondsFail _, rfl, hb⟩
    rw [exec_eq, hb, preCheck_unbound rfl (by rintro _ _ ⟨⟩)]
  · obtain ⟨u, hstep, hok, hclose, hbound, rfl, hframe⟩ := step_accepted_closeDevice hr ha
    have ⟨hidle, _⟩ := hok
    exact ⟨_, u, exec_closeDevice_bound hb, hstep, hok, hclose, hbound, State.outstanding_idle hidle, rfl,
      Env.blockTxns_answer ha, hframe⟩

end Sys2Proof.Machine
end

section
/-! Pre-check faults and the silent bus (60_exceptions R601, R602, R605). -/

namespace Sys2Proof.Machine

/-! ### R602: a pre-check fault -/

/-- R601: the codes of the pre-check causes are 3 to 6. -/
theorem code_bounds_of_mem_preCheckCauses {c : Cause} (h : c ∈ preCheckCauses) :
    3 ≤ c.code.toNat ∧ c.code.toNat ≤ 6 := by
  simp only [preCheckCauses, List.mem_cons, List.not_mem_nil, or_false] at h
  obtain rfl | rfl | rfl | rfl := h <;> decide

/-- A response that `exec` itself gives is that of the pre-check which applied. -/
theorem eq_raise_of_exec_responds {i : Instr} {s t : State} (hv : s.rspValid = false) (h : exec i s = .next t)
    (ht : t.rspValid = true) : ∃ c ∈ preCheckCauses, t = s.raise c := by
  obtain ⟨c, hc, rfl⟩ | ⟨-, rfl⟩ := exec_cases h
  · exact ⟨c, preCheck_mem hc, rfl⟩
  · rw [State.accepted_rspValid, hv] at ht; cases ht

/-- Settles O11: the state that answers is `s.raise c` for a pre-check's cause `c`, and `raise` writes the response
registers and the phase, which was IDLE. -/
theorem preCheckFaultChangesOnlyTheResponse : Obligations.PreCheckFaultChangesOnlyTheResponse := by
  refine ⟨by decide, fun i s t hidle hv h ht => ?_⟩
  obtain ⟨c, hc, rfl⟩ := eq_raise_of_exec_responds hv h ht
  obtain ⟨hlo, hhi⟩ := code_bounds_of_mem_preCheckCauses hc
  exact ⟨rfl, hc, rfl, hlo, hhi, ⟨rfl, rfl⟩, ⟨rfl, rfl, rfl, rfl⟩, hidle.symm, rfl, rfl, rfl, rfl, rfl, rfl⟩

/-! ### R605: the silent bus -/

/-- R210: under the invariant, an executing command whose bus is silent waits. -/
theorem step_silent {s : State} (hi : s.Inv) (hr : s.rst = false) (hp : s.phase = .busy)
    (hs : s.env.source = .answers []) : step s = .next s := by
  obtain ⟨t, ht⟩ := runMicroOp_next hi hp
  rw [step_busy hr hp]
  obtain ⟨-, h⟩ | ⟨-, -, -, -, h⟩ | ⟨-, -, -, -, h⟩ | ⟨op, r, e, -, -, ha, -⟩ := runMicroOp_cases s
  · rw [h] at ht; cases ht
  · rw [h] at ht; cases ht
  · exact h
  · rw [Env.answer_none.2 hs] at ha; cases ha

theorem runSteps_of_step_self {s : State} (h : step s = .next s) (n : Nat) : runSteps n s = .next s := by
  induction n with
  | zero => rfl
  | succ n ih => rw [runSteps_succ h, ih]

/-- Settles O29: each step waits and leaves the state, so any number of them does. -/
theorem silentBusKeepsTheBlockBusy : Obligations.SilentBusKeepsTheBlockBusy :=
  fun _ n hi hr hp hs => runSteps_of_step_self (step_silent hi hr hp hs) n

end Sys2Proof.Machine
end

section
/-! SET_CHANNEL on the double (20_memory R203, R232; 43_channel_writer R471; 70_reset R712). -/

namespace Sys2Proof.Machine

/-! ### R203: the four registers of a channel -/

theorem toNat_chanAddr_default_add {id : BitVec 8} (hid : id.toNat ≤ 15) {k : Nat} (hk : k < 4) :
    (chanAddr Params.default id + BitVec.ofNat 8 k).toNat = 6 + 4 * id.toNat + k := by
  rw [BitVec.toNat_add, toNat_chanAddr_default, BitVec.toNat_ofNat]
  omega

/-- R202: MODE1 lies below the sixteen channels' registers, and PRE_SCALE above them. -/
theorem isPlainAddress_channel {id : BitVec 8} (hid : id.toNat ≤ 15) {k : Nat} (hk : k < 4) :
    IsPlainAddress Params.default (chanAddr Params.default id + BitVec.ofNat 8 k) := by
  have haddr := toNat_chanAddr_default_add hid hk
  have hmode1 : Params.default.regMode1.toNat = 0 := rfl
  have hpre : Params.default.regPreScale.toNat = 254 := rfl
  constructor
  · intro h; rw [h, hmode1] at haddr; omega
  · intro h; rw [h, hpre] at haddr; omega

/-! ### R712: the run -/

/-- On an undisturbed double an accepted SET_CHANNEL stores its five-byte write and completes. -/
theorem step_accepted_setChannel_calm {s : State} {d : Double} (hr : s.rst = false) (hsrc : s.env.source = .double d)
    (hd : d.Calm) (id : BitVec 8) (on off : BitVec 16) :
    ∃ u, step (s.accepted (.setChannel id on off)) = .next u ∧ u.RespondsOk ∧ u.env.source = .double
      (d.write s.params [chanAddr s.params id, lowByte on, highByte on, lowByte off, highByte off]) := by
  obtain ⟨e, ha, hsrc'⟩ := Env.answer_busWrite_calm (p := s.params) hsrc hd s.chan
    [chanAddr s.params id, lowByte on, highByte on, lowByte off, highByte off]
  obtain ⟨u, hstep, hok, rfl, -⟩ := step_accepted_setChannel hr ha
  exact ⟨u, hstep, hok, hsrc'⟩

/-- Settles O55: the channel's four addresses are plain ones, so with AI set the five-byte write stores there. -/
theorem setChannelStoresItsFourRegisters : Obligations.SetChannelStoresItsFourRegisters := by
  intro s d id on off hr hb hparams hsrc hd hwf hai hid
  obtain ⟨u, hstep, hok, hsrc'⟩ := step_accepted_setChannel_calm hr hsrc hd id on off
  have hplain : ∀ k < 4, IsPlainAddress s.params (chanAddr s.params id + BitVec.ofNat 8 k) := by
    rw [hparams]; exact fun k => isPlainAddress_channel hid
  obtain ⟨-, h0, h1, h2, h3, hother⟩ := (fourByteWriteFollowsAutoIncrement s.params d (chanAddr s.params id)
    (lowByte on) (highByte on) (lowByte off) (highByte off) hwf hplain).1 hai
  have hreg := State.chipReg_of_double hsrc'
  refine ⟨_, u, exec_setChannel_bound hb id on off, hstep, hok, ?_, ?_, ?_, ?_, fun x hx => ?_⟩
  · rw [hreg, h0]
  · rw [hreg, h1]
  · rw [hreg, h2]
  · rw [hreg, h3]
  · rw [hreg, State.chipReg_of_double hsrc,
      hother x (by simpa using hx 0) (hx 1 (by decide)) (hx 2 (by decide)) (hx 3 (by decide))]

end Sys2Proof.Machine
end

section
/-! OPEN on the double (20_memory R231 to R235; 41_mode_rmw R421, R431; 44_lifecycle R491; 70_reset R704). -/

namespace Sys2Proof.Machine

/-! ### The writes of OPEN before those of `SF` -/

/-- The double after R491's third and fourth transactions, the two empty requests. -/
def Double.emptied (p : Params) (d : Double) : Double :=
  (d.write p (emptyBytes p p.regMode1)).write p (emptyBytes p p.regMode2)

/-- The double after R491's first seven transactions. -/
def Double.openSetup (p : Params) (d : Double) : Double := (d.emptied p).rmw2 p req2Tp

theorem Double.wf_emptied {p : Params} {d : Double} (hwf : Memory.wf d.regs = true) :
    Memory.wf (d.emptied p).regs = true := Double.wf_write _ _ _ (Double.wf_write _ _ _ hwf)

theorem Double.wf_openSetup {p : Params} {d : Double} (hwf : Memory.wf d.regs = true) :
    Memory.wf (d.openSetup p).regs = true := Double.wf_write _ _ _ (Double.wf_emptied hwf)

section registers
variable {p : Params} {d : Double} (hp : p.wf) (hwf : Memory.wf d.regs = true)
include hp hwf

theorem Double.reg_emptied (x : Byte) :
    (d.emptied p).reg x =
      if x = p.regMode1 ∨ x = p.regMode2 then emptiedRegister p (d.reg x) else d.reg x := by
  obtain ⟨hne, hne1, hne2⟩ := registers_ne_of_wf hp
  have hwf' := Double.wf_write p d (emptyBytes p p.regMode1) hwf
  rw [Double.emptied]
  by_cases h2 : x = p.regMode2
  · rw [if_pos (.inr h2), h2, Double.reg_write_empty_same hwf' hne2, Double.reg_write_empty_other hwf hne.symm]
  · rw [Double.reg_write_empty_other hwf' h2]
    by_cases h1 : x = p.regMode1
    · rw [if_pos (.inl h1), h1, Double.reg_write_empty_same hwf hne1]
    · rw [if_neg (not_or.2 ⟨h1, h2⟩), Double.reg_write_empty_other hwf h1]

theorem Double.reg_openSetup_mode1 : (d.openSetup p).reg p.regMode1 = emptiedRegister p (d.reg p.regMode1) := by
  obtain ⟨hne, -⟩ := registers_ne_of_wf hp
  rw [Double.openSetup, Double.reg_rmw2 hp (Double.wf_emptied hwf), if_neg hne, Double.reg_emptied hp hwf,
    if_pos (.inl rfl)]

theorem Double.reg_openSetup_mode2 :
    (d.openSetup p).reg p.regMode2 = m2 p (emptiedRegister p (d.reg p.regMode2)) req2Tp := by
  rw [Double.openSetup, Double.reg_rmw2 hp (Double.wf_emptied hwf), if_pos rfl, Double.reg_emptied hp hwf,
    if_pos (.inr rfl)]

theorem Double.reg_openSetup_other {x : Byte} (h1 : x ≠ p.regMode1) (h2 : x ≠ p.regMode2) :
    (d.openSetup p).reg x = d.reg x := by
  rw [Double.openSetup, Double.reg_rmw2 hp (Double.wf_emptied hwf), if_neg h2, Double.reg_emptied hp hwf,
    if_neg (not_or.2 ⟨h1, h2⟩)]

end registers

/-! ### An undisturbed double -/

section calm
variable {p : Params} {e : Env} {d : Double} (hs : e.source = .double d) (hd : d.Calm)
include hs hd

/-- R235: BusOpen succeeds with the token 1, and does not reach the chip's registers. -/
theorem Env.answer_busOpen_calm (path : Token) :
    ∃ e', e.answer p (.busOpen path) = some ({ ok := true, chan := 1 }, e') ∧ e'.source = .double d := by
  obtain ⟨hinject, hothers⟩ := hd
  obtain ⟨e', ha, hsrc, -⟩ := Env.answer_double (p := p) hs (Double.othersAt_calm d e.txns hothers) (.busOpen path)
  have hrespond : d.respond p e.txns (.busOpen path) = ({ ok := true, chan := 1 }, d) := if_neg (by simp [hinject])
  rw [Double.runOthers, List.foldl_nil, hrespond] at ha hsrc
  exact ⟨e', ha, hsrc⟩

/-- R235: BusBind succeeds, and does not reach the chip's registers. -/
theorem Env.answer_busBind_calm (c : Token) (addr7 : BitVec 7) :
    ∃ e', e.answer p (.busBind c addr7) = some ({ ok := true }, e') ∧ e'.source = .double d := by
  obtain ⟨hinject, hothers⟩ := hd
  obtain ⟨e', ha, hsrc, -⟩ := Env.answer_double (p := p) hs (Double.othersAt_calm d e.txns hothers)
    (.busBind c addr7)
  have hrespond : d.respond p e.txns (.busBind c addr7) = ({ ok := true }, d) := by simp [Double.respond, hinject]
  rw [Double.runOthers, List.foldl_nil, hrespond] at ha hsrc
  exact ⟨e', ha, hsrc⟩

end calm

/-- The answers of a chip to OPEN's first seven requests, with the byte of its read. -/
def openSetupAnswers (p : Params) (byte : Byte) : List BusResponse :=
  [{ ok := true, chan := 1 }, { ok := true }, { count := (emptyBytes p p.regMode1).length },
    { count := (emptyBytes p p.regMode2).length }, { count := 1 }, { count := 1, byte := byte }, { count := 2 }]

theorem Double.Calm.openSetup {d : Double} (hd : d.Calm) (p : Params) : (d.openSetup p).Calm :=
  ((hd.write p _).write p _).write p _

/-- The double answers R491's first seven requests in full, the read with the register's byte (R213). -/
theorem Env.answerAll_openSetup_calm {p : Params} {e : Env} {d : Double} (hs : e.source = .double d) (hd : d.Calm)
    (path : Token) (addr7 : BitVec 7) :
    ∃ byte e', e.answerAll p (openSetupRequests p path addr7 1 byte) = some (openSetupAnswers p byte, e') ∧
      e'.source = .double (d.openSetup p) := by
  obtain ⟨e1, a1, src1⟩ := Env.answer_busOpen_calm (p := p) hs hd path
  obtain ⟨e2, a2, src2⟩ := Env.answer_busBind_calm (p := p) src1 hd 1 addr7
  obtain ⟨e3, a3, src3⟩ := Env.answer_busWrite_calm (p := p) src2 hd 1 (emptyBytes p p.regMode1)
  have hd3 := hd.write p (emptyBytes p p.regMode1)
  obtain ⟨e4, a4, (src4 : e4.source = .double (d.emptied p))⟩ :=
    Env.answer_busWrite_calm (p := p) src3 hd3 1 (emptyBytes p p.regMode2)
  have hd4 : (d.emptied p).Calm := hd3.write p _
  obtain ⟨e7, a7, src7⟩ := Env.answerAll_rmw_calm (p := p) src4 hd4 1 p.regMode2
    (m2 p ((d.emptied p).reg p.regMode2) req2Tp)
  exact ⟨(d.emptied p).reg p.regMode2, e7, Env.answerAll_cons_of a1 (Env.answerAll_cons_of a2
    (Env.answerAll_cons_of a3 (Env.answerAll_cons_of a4 a7))), src7⟩

/-! ### R704: the run -/

/-- On an undisturbed double OPEN succeeds, on the channel 1, and leaves the double set up and tuned. -/
theorem runSteps_openDevice_calm {s : State} {d : Double} (hr : s.rst = false) (hb : s.bound = false)
    (hsrc : s.env.source = .double d) (hd : d.Calm) (path : Token) (addr7 : BitVec 7) :
    ∃ t u, exec (.openDevice path addr7) s = .next t ∧ runSteps 17 t = .next u ∧ u.RespondsOk ∧
      u.bound = true ∧ u.chan = 1 ∧ u.env.source =
        .double ((d.openSetup s.params).tuned s.params (prescale s.params s.params.defaultFreq)) := by
  obtain ⟨byte6, e7, ha7, hsrc7⟩ := Env.answerAll_openSetup_calm (p := s.params) hsrc hd path addr7
  obtain ⟨byte9, byte13, byte16, e, ha, hsrc'⟩ := Env.answerAll_frequency_calm (p := s.params) hsrc7
    (hd.openSetup s.params) 1 (prescale s.params s.params.defaultFreq)
  have hall := (Env.answerAll_append_iff (rs := openSetupAnswers s.params byte6) rfl).2 ⟨e7, ha7, ha⟩
  obtain ⟨t, u, hexec, hrun, hok, rfl, -, hbound, hchan, -⟩ := openRunsItsSeventeenTransactions s path addr7 _
    { ok := true, chan := 1 } { ok := true } _ _ { count := 1 } { count := 1, byte := byte6 } { count := 2 }
    { count := 1 } { count := 1, byte := byte9 } { count := 2 } { count := 2 }
    { count := 1 } { count := 1, byte := byte13 } { count := 2 }
    { count := 1 } { count := 1, byte := byte16 } { count := 2 } e hr hb rfl hall rfl rfl rfl rfl rfl rfl
  exact ⟨t, u, hexec, hrun, hok, hbound, hchan, hsrc'⟩

/-- Settles O57: OPEN's run against the double's answers, and the registers that its setup and `SF` leave. -/
theorem openConfiguresTheDouble : Obligations.OpenConfiguresTheDouble := by
  intro s d path addr7 hr hb hp hsrc hd hwf
  obtain ⟨t, u, hexec, hrun, hok, hbound, hchan, hsrc'⟩ := runSteps_openDevice_calm hr hb hsrc hd path addr7
  have hwf' := Double.wf_openSetup (p := s.params) hwf
  have hreg := State.chipReg_of_double hsrc'
  refine ⟨t, u, _, hexec, hrun, hok, hbound, hchan, ?_, ?_, hreg _, fun k => ?_, fun x h1 h2 hpre => ?_⟩
  · rw [hreg, Double.reg_tuned_preScale hp hwf']
  · rw [hreg, Double.reg_tuned_mode2 hp hwf', Double.reg_openSetup_mode2 hp hwf]
  · rw [Double.getLsbD_reg_tuned_mode1 hp hwf', Double.reg_openSetup_mode1 hp hwf]
  · rw [hreg, Double.reg_tuned_other hp hwf' _ h1 h2 hpre, Double.reg_openSetup_other hp hwf h1 h2,
      State.chipReg_of_double hsrc]

end Sys2Proof.Machine
end

section
/-! Block reset (70_reset R700, R701). -/

namespace Sys2Proof.Machine

/-! ### R701: what a reset leaves of the environment -/

theorem State.blockReset_env_of_idle {s : State} (hp : s.phase = .idle) : s.blockReset.env = s.env := by
  rw [State.blockReset_env, hp]

theorem State.blockReset_env_of_busy {s : State} (hp : s.phase = .busy) : s.blockReset.env = s.env.dropAnswer := by
  rw [State.blockReset_env, hp]

theorem Env.dropAnswer_of_double {e : Env} {d : Double} (h : e.source = .double d) : e.dropAnswer = e := by
  rw [Env.dropAnswer, h]

theorem Env.dropAnswer_source_of_answers {e : Env} {rs : List BusResponse} (h : e.source = .answers rs) :
    e.dropAnswer.source = .answers rs.tail := by
  rw [Env.dropAnswer, h]

theorem State.blockReset_env_log (s : State) : s.blockReset.env.log = s.env.log := by
  cases hp : s.phase with
  | idle => rw [State.blockReset_env_of_idle hp]
  | busy => rw [State.blockReset_env_of_busy hp, Env.dropAnswer_log]

/-- R700: the chip behind the bus is not touched. -/
theorem State.blockReset_source_of_double {s : State} {d : Double} (h : s.env.source = .double d) :
    s.blockReset.env.source = .double d := by
  cases hp : s.phase with
  | idle => rw [State.blockReset_env_of_idle hp, h]
  | busy => rw [State.blockReset_env_of_busy hp, Env.dropAnswer_of_double h, h]

/-- R701: in BUSY the answer to the abandoned request is ignored. -/
theorem State.blockReset_source_of_answers {s : State} {r : BusResponse} {rs : List BusResponse}
    (h : s.env.source = .answers (r :: rs)) :
    s.blockReset.env.source = .answers (if s.phase = .busy then rs else r :: rs) := by
  cases hp : s.phase with
  | idle => rw [State.blockReset_env_of_idle hp, h, if_neg (by decide)]
  | busy => rw [State.blockReset_env_of_busy hp, Env.dropAnswer_source_of_answers h, if_pos rfl, List.tail_cons]

/-! ### R700: the block after reset -/

/-- R300: an idle block is ready for a command. -/
theorem State.cmdReady_idle {s : State} (hp : s.phase = .idle) : s.cmdReady = true := by
  simp [State.cmdReady, hp]

/-- Settles O30: the reset state is idle, in front of the double at power-on. -/
theorem resetMeetsTheInvariant : Obligations.ResetMeetsTheInvariant :=
  State.Inv.of_idle rfl Memory.wf_powerOn

/-- Settles O38: the step is `blockReset`, whose environment keeps the log and the double. -/
theorem blockResetUnbindsWithoutTransaction : Obligations.BlockResetUnbindsWithoutTransaction :=
  fun s h => ⟨s.blockReset, step_reset h, rfl, rfl, rfl, State.outstanding_idle rfl, rfl, rfl, rfl,
    s.blockReset_env_log, fun _ => State.blockReset_source_of_double, fun _ _ => State.blockReset_source_of_answers⟩

/-- Settles O39: the reset state and `blockReset` are idle, so nothing is outstanding and the block is ready. -/
theorem resetStateIsIdleAndUnbound : Obligations.ResetStateIsIdleAndUnbound :=
  ⟨⟨rfl, rfl, rfl, State.outstanding_idle rfl, State.cmdReady_idle rfl⟩, fun s h =>
    ⟨s.blockReset, step_reset h, rfl, rfl, rfl, State.outstanding_idle rfl, State.cmdReady_idle rfl⟩⟩

end Sys2Proof.Machine
end
